-- ==== Sys2Proof/Word.lean ====
section
/-!
DEFINITION. The word types of CORE (00_scope.md R9): the widths every other file is written against.
-/
namespace Sys2Proof

/-- A data word and a 16-bit register (DATA_W, 00_scope.md R9). -/
abbrev Word := BitVec 16

/-- A data or program address, and PC, I, L and CNTR (ADDR_W, 00_scope.md R9). -/
abbrev Addr := BitVec 14

/-- A program memory word, which is also an instruction word: payload in 23:8, tag in 7:0 (20_memory.md R81). -/
abbrev PWord := BitVec 24

/-- The 8-bit tag lane of a program word and PX (TAG_W, 00_scope.md R9). -/
abbrev Byte := BitVec 8

end Sys2Proof
end

