-- ==== Sys2Proof/Syntax.lean ====
section
/-!
DEFINITION. The instructions of CORE: one constructor per row of spec/opcode_table.json, in the table's order, each with
the fields 30_encoding.md R102 gives its format. Bits that no field names are ignored by the decoder (R113) and are not
part of an instruction. XOP, YOP and the register fields are operand selects: they stay the bit fields the tables of
10_state.md R35, 43_alu.md R170, 44_mac.md R200 and 45_shifter.md R230 are indexed with.
-/
namespace Sys2Proof

/-- The condition codes, in code order 0 to 15, with their mnemonics in `IF` (47_program_flow.md R281). -/
inductive Cond where
  | eq | ne | gt | le | lt | ge | av | notAv | ac | notAc | neg | pos | mv | notMv | notCe | always
deriving DecidableEq, Repr

/-- The sixteen ALU functions, in code order 0 to 15 (43_alu.md R173 to R188). -/
inductive AluFn where
  /-- 0: `yop`, R173. -/
  | passY
  /-- 1: `yop + 1`, R174. -/
  | incY
  /-- 2: `xop + yop + C`, R175. -/
  | addC
  /-- 3: `xop + yop`, R176. -/
  | add
  /-- 4: `NOT yop`, R177. -/
  | notY
  /-- 5: `-yop`, R178. -/
  | negY
  /-- 6: `xop - yop + C - 1`, R179. -/
  | subC
  /-- 7: `xop - yop`, R180. -/
  | sub
  /-- 8: `yop - 1`, R181. -/
  | decY
  /-- 9: `yop - xop`, R182. -/
  | rsub
  /-- 10: `yop - xop + C - 1`, R183. -/
  | rsubC
  /-- 11: `NOT xop`, R184. -/
  | notX
  /-- 12: `xop AND yop`, R185. -/
  | and
  /-- 13: `xop OR yop`, R186. -/
  | or
  /-- 14: `xop XOR yop`, R187. -/
  | xor
  /-- 15: `ABS xop`, R188. -/
  | absX
deriving DecidableEq, Repr

/-- The sixteen MAC functions, in code order 0 to 15 (44_mac.md R204 to R219). -/
inductive MacFn where
  /-- 0: no operation, R204. -/
  | noOp
  /-- 1: `xop * yop (RND)`, R205. -/
  | mulRnd
  /-- 2: `MR + xop * yop (RND)`, R206. -/
  | addRnd
  /-- 3: `MR - xop * yop (RND)`, R207. -/
  | subRnd
  /-- 4: `xop * yop (SS)`, R208. -/
  | mulSS
  /-- 5: `xop * yop (SU)`, R209. -/
  | mulSU
  /-- 6: `xop * yop (US)`, R210. -/
  | mulUS
  /-- 7: `xop * yop (UU)`, R211. -/
  | mulUU
  /-- 8: `MR + xop * yop (SS)`, R212. -/
  | addSS
  /-- 9: `MR + xop * yop (SU)`, R213. -/
  | addSU
  /-- 10: `MR + xop * yop (US)`, R214. -/
  | addUS
  /-- 11: `MR + xop * yop (UU)`, R215. -/
  | addUU
  /-- 12: `MR - xop * yop (SS)`, R216. -/
  | subSS
  /-- 13: `MR - xop * yop (SU)`, R217. -/
  | subSU
  /-- 14: `MR - xop * yop (US)`, R218. -/
  | subUS
  /-- 15: `MR - xop * yop (UU)`, R219. -/
  | subUU
deriving DecidableEq, Repr

/-- The sixteen shifter functions, in code order 0 to 15 (45_shifter.md R232 to R247). -/
inductive ShFn where
  /-- 0: `SR = LSHIFT xop (HI)`, R232. -/
  | lshiftHi
  /-- 1: `SR = SR OR LSHIFT xop (HI)`, R233. -/
  | orLshiftHi
  /-- 2: `SR = LSHIFT xop (LO)`, R234. -/
  | lshiftLo
  /-- 3: `SR = SR OR LSHIFT xop (LO)`, R235. -/
  | orLshiftLo
  /-- 4: `SR = ASHIFT xop (HI)`, R236. -/
  | ashiftHi
  /-- 5: `SR = SR OR ASHIFT xop (HI)`, R237. -/
  | orAshiftHi
  /-- 6: `SR = ASHIFT xop (LO)`, R238. -/
  | ashiftLo
  /-- 7: `SR = SR OR ASHIFT xop (LO)`, R239. -/
  | orAshiftLo
  /-- 8: `SR = NORM xop (HI)`, R240. -/
  | normHi
  /-- 9: `SR = SR OR NORM xop (HI)`, R241. -/
  | orNormHi
  /-- 10: `SR = NORM xop (LO)`, R242. -/
  | normLo
  /-- 11: `SR = SR OR NORM xop (LO)`, R243. -/
  | orNormLo
  /-- 12: `SE = EXP xop (HI)`, R244. -/
  | expHi
  /-- 13: `SE = EXP xop (HIX)`, R245. -/
  | expHix
  /-- 14: `SE = EXP xop (LO)`, R246. -/
  | expLo
  /-- 15: `SB = EXPADJ xop`, R247. -/
  | expAdj
deriving DecidableEq, Repr

/-- AMF: the functional unit and its function (30_encoding.md R103). -/
inductive Amf where
  | mac (fn : MacFn)
  | alu (fn : AluFn)
deriving DecidableEq, Repr

/-- Z: the primary result register (AR or MR) or the feedback one (AF or MF) (30_encoding.md R103). -/
inductive Dest where
  | primary
  | feedback
deriving DecidableEq, Repr

/-- G: the address generator DAG1 (slots 0 to 3) or DAG2 (slots 4 to 7) (30_encoding.md R108). -/
inductive Gen where
  | dag1
  | dag2
deriving DecidableEq, Repr

/-- A slot of the (group, index) register scheme, valid or not (10_state.md R35). -/
structure Slot where
  group : BitVec 2
  index : BitVec 4
deriving DecidableEq, Repr

/-- The instructions: one constructor per row of spec/opcode_table.json. -/
inductive Instr where
  /-- `NOP` (R283). -/
  | nop
  /-- reserved top byte 0x01, executes as NOP (R293). -/
  | reserved01
  /-- reserved top byte 0x02, executes as NOP (R293). -/
  | reserved02
  /-- reserved top byte 0x03, executes as NOP (R293). -/
  | reserved03
  /-- reserved top byte 0x08, executes as NOP (R293). -/
  | reserved08
  /-- `PUSH STS` / `POP STS` / `POP CNTR` / `POP PC` / `POP LOOP` (R160). -/
  | stackControl (pp : Bool) (lp : Bool) (cp : Bool) (spp : BitVec 2)
  /-- `IF MV SAT MR` (R221). -/
  | satMr
  /-- `DIVS yop, xop` (R190). -/
  | divs (yop : BitVec 2) (xop : BitVec 3)
  /-- `DIVQ xop` (R191). -/
  | divq (xop : BitVec 3)
  /-- `MODIFY(In, Mn)` (R147). -/
  | modify (g : Gen) (i : BitVec 2) (m : BitVec 2)
  /-- `[IF cond] RTS` (R289). -/
  | rts (cond : Cond)
  /-- `[IF cond] RTI` (R290). -/
  | rti (cond : Cond)
  /-- `[IF cond] JUMP (In)` (R286). -/
  | jumpInd (i : BitVec 2) (cond : Cond)
  /-- `[IF cond] CALL (In)` (R287). -/
  | callInd (i : BitVec 2) (cond : Cond)
  /-- `ENA mode` / `DIS mode`; `sat` is the field AS (R133). -/
  | modeControl (ti : BitVec 2) (mm : BitVec 2) (sat : BitVec 2) (ol : BitVec 2) (br : BitVec 2) (sr : BitVec 2) (gm : BitVec 2)
  /-- `reg = reg` (R130). -/
  | moveReg (dst : Slot) (src : Slot)
  /-- `[IF cond] SR = LSHIFT xop (HI)` (R232, R248). -/
  | lshiftHi (xop : BitVec 3) (cond : Cond)
  /-- `[IF cond] SR = SR OR LSHIFT xop (HI)` (R233, R248). -/
  | orLshiftHi (xop : BitVec 3) (cond : Cond)
  /-- `[IF cond] SR = LSHIFT xop (LO)` (R234, R248). -/
  | lshiftLo (xop : BitVec 3) (cond : Cond)
  /-- `[IF cond] SR = SR OR LSHIFT xop (LO)` (R235, R248). -/
  | orLshiftLo (xop : BitVec 3) (cond : Cond)
  /-- `[IF cond] SR = ASHIFT xop (HI)` (R236, R248). -/
  | ashiftHi (xop : BitVec 3) (cond : Cond)
  /-- `[IF cond] SR = SR OR ASHIFT xop (HI)` (R237, R248). -/
  | orAshiftHi (xop : BitVec 3) (cond : Cond)
  /-- `[IF cond] SR = ASHIFT xop (LO)` (R238, R248). -/
  | ashiftLo (xop : BitVec 3) (cond : Cond)
  /-- `[IF cond] SR = SR OR ASHIFT xop (LO)` (R239, R248). -/
  | orAshiftLo (xop : BitVec 3) (cond : Cond)
  /-- `[IF cond] SR = NORM xop (HI)` (R240, R248). -/
  | normHi (xop : BitVec 3) (cond : Cond)
  /-- `[IF cond] SR = SR OR NORM xop (HI)` (R241, R248). -/
  | orNormHi (xop : BitVec 3) (cond : Cond)
  /-- `[IF cond] SR = NORM xop (LO)` (R242, R248). -/
  | normLo (xop : BitVec 3) (cond : Cond)
  /-- `[IF cond] SR = SR OR NORM xop (LO)` (R243, R248). -/
  | orNormLo (xop : BitVec 3) (cond : Cond)
  /-- `[IF cond] SE = EXP xop (HI)` (R244, R248). -/
  | expHi (xop : BitVec 3) (cond : Cond)
  /-- `[IF cond] SE = EXP xop (HIX)` (R245, R248). -/
  | expHix (xop : BitVec 3) (cond : Cond)
  /-- `[IF cond] SE = EXP xop (LO)` (R246, R248). -/
  | expLo (xop : BitVec 3) (cond : Cond)
  /-- `[IF cond] SB = EXPADJ xop` (R247, R248). -/
  | expAdj (xop : BitVec 3) (cond : Cond)
  /-- `SR = LSHIFT xop BY n (HI)` (R232, R249). -/
  | lshiftHiImm (xop : BitVec 3) (n : BitVec 8)
  /-- `SR = SR OR LSHIFT xop BY n (HI)` (R233, R249). -/
  | orLshiftHiImm (xop : BitVec 3) (n : BitVec 8)
  /-- `SR = LSHIFT xop BY n (LO)` (R234, R249). -/
  | lshiftLoImm (xop : BitVec 3) (n : BitVec 8)
  /-- `SR = SR OR LSHIFT xop BY n (LO)` (R235, R249). -/
  | orLshiftLoImm (xop : BitVec 3) (n : BitVec 8)
  /-- `SR = ASHIFT xop BY n (HI)` (R236, R249). -/
  | ashiftHiImm (xop : BitVec 3) (n : BitVec 8)
  /-- `SR = SR OR ASHIFT xop BY n (HI)` (R237, R249). -/
  | orAshiftHiImm (xop : BitVec 3) (n : BitVec 8)
  /-- `SR = ASHIFT xop BY n (LO)` (R238, R249). -/
  | ashiftLoImm (xop : BitVec 3) (n : BitVec 8)
  /-- `SR = SR OR ASHIFT xop BY n (LO)` (R239, R249). -/
  | orAshiftLoImm (xop : BitVec 3) (n : BitVec 8)
  /-- shift by an immediate with SF[3] = 1, executes as NOP (R249). -/
  | shiftImmReserved
  /-- `shift, dreg = dreg` (R267). -/
  | shiftMove (sf : ShFn) (xop : BitVec 3) (ddreg : BitVec 4) (sdreg : BitVec 4)
  /-- `shift, dreg = PM(In, Mn)` (R269). -/
  | shiftPmRead (sf : ShFn) (xop : BitVec 3) (dreg : BitVec 4) (i : BitVec 2) (m : BitVec 2)
  /-- `shift, PM(In, Mn) = dreg` (R269). -/
  | shiftPmWrite (sf : ShFn) (xop : BitVec 3) (dreg : BitVec 4) (i : BitVec 2) (m : BitVec 2)
  /-- `shift, dreg = DM(In, Mn)` (R268). -/
  | shiftDmRead (g : Gen) (sf : ShFn) (xop : BitVec 3) (dreg : BitVec 4) (i : BitVec 2) (m : BitVec 2)
  /-- `shift, DM(In, Mn) = dreg` (R268). -/
  | shiftDmWrite (g : Gen) (sf : ShFn) (xop : BitVec 3) (dreg : BitVec 4) (i : BitVec 2) (m : BitVec 2)
  /-- `DO addr UNTIL term` (R291). -/
  | doUntil (addr : Addr) (term : Cond)
  /-- `[IF cond] JUMP addr` (R284). -/
  | jump (addr : Addr) (cond : Cond)
  /-- `[IF cond] CALL addr` (R285). -/
  | call (addr : Addr) (cond : Cond)
  /-- `[IF cond]` with MAC function 0: only the condition is evaluated (R204, R220). -/
  | condNoCompute (z : Dest) (yop : BitVec 2) (xop : BitVec 3) (cond : Cond)
  /-- `[IF cond] MR = xop * yop (RND)` (R205, R220). -/
  | mrMulRnd (yop : BitVec 2) (xop : BitVec 3) (cond : Cond)
  /-- `[IF cond] MF = xop * yop (RND)` (R205, R220). -/
  | mfMulRnd (yop : BitVec 2) (xop : BitVec 3) (cond : Cond)
  /-- `[IF cond] MR = MR + xop * yop (RND)` (R206, R220). -/
  | mrAddRnd (yop : BitVec 2) (xop : BitVec 3) (cond : Cond)
  /-- `[IF cond] MF = MR + xop * yop (RND)` (R206, R220). -/
  | mfAddRnd (yop : BitVec 2) (xop : BitVec 3) (cond : Cond)
  /-- `[IF cond] MR = MR - xop * yop (RND)` (R207, R220). -/
  | mrSubRnd (yop : BitVec 2) (xop : BitVec 3) (cond : Cond)
  /-- `[IF cond] MF = MR - xop * yop (RND)` (R207, R220). -/
  | mfSubRnd (yop : BitVec 2) (xop : BitVec 3) (cond : Cond)
  /-- `[IF cond] MR = xop * yop (SS)` (R208, R220). -/
  | mrMulSS (yop : BitVec 2) (xop : BitVec 3) (cond : Cond)
  /-- `[IF cond] MF = xop * yop (SS)` (R208, R220). -/
  | mfMulSS (yop : BitVec 2) (xop : BitVec 3) (cond : Cond)
  /-- `[IF cond] MR = xop * yop (SU)` (R209, R220). -/
  | mrMulSU (yop : BitVec 2) (xop : BitVec 3) (cond : Cond)
  /-- `[IF cond] MF = xop * yop (SU)` (R209, R220). -/
  | mfMulSU (yop : BitVec 2) (xop : BitVec 3) (cond : Cond)
  /-- `[IF cond] MR = xop * yop (US)` (R210, R220). -/
  | mrMulUS (yop : BitVec 2) (xop : BitVec 3) (cond : Cond)
  /-- `[IF cond] MF = xop * yop (US)` (R210, R220). -/
  | mfMulUS (yop : BitVec 2) (xop : BitVec 3) (cond : Cond)
  /-- `[IF cond] MR = xop * yop (UU)` (R211, R220). -/
  | mrMulUU (yop : BitVec 2) (xop : BitVec 3) (cond : Cond)
  /-- `[IF cond] MF = xop * yop (UU)` (R211, R220). -/
  | mfMulUU (yop : BitVec 2) (xop : BitVec 3) (cond : Cond)
  /-- `[IF cond] MR = MR + xop * yop (SS)` (R212, R220). -/
  | mrAddSS (yop : BitVec 2) (xop : BitVec 3) (cond : Cond)
  /-- `[IF cond] MF = MR + xop * yop (SS)` (R212, R220). -/
  | mfAddSS (yop : BitVec 2) (xop : BitVec 3) (cond : Cond)
  /-- `[IF cond] MR = MR + xop * yop (SU)` (R213, R220). -/
  | mrAddSU (yop : BitVec 2) (xop : BitVec 3) (cond : Cond)
  /-- `[IF cond] MF = MR + xop * yop (SU)` (R213, R220). -/
  | mfAddSU (yop : BitVec 2) (xop : BitVec 3) (cond : Cond)
  /-- `[IF cond] MR = MR + xop * yop (US)` (R214, R220). -/
  | mrAddUS (yop : BitVec 2) (xop : BitVec 3) (cond : Cond)
  /-- `[IF cond] MF = MR + xop * yop (US)` (R214, R220). -/
  | mfAddUS (yop : BitVec 2) (xop : BitVec 3) (cond : Cond)
  /-- `[IF cond] MR = MR + xop * yop (UU)` (R215, R220). -/
  | mrAddUU (yop : BitVec 2) (xop : BitVec 3) (cond : Cond)
  /-- `[IF cond] MF = MR + xop * yop (UU)` (R215, R220). -/
  | mfAddUU (yop : BitVec 2) (xop : BitVec 3) (cond : Cond)
  /-- `[IF cond] MR = MR - xop * yop (SS)` (R216, R220). -/
  | mrSubSS (yop : BitVec 2) (xop : BitVec 3) (cond : Cond)
  /-- `[IF cond] MF = MR - xop * yop (SS)` (R216, R220). -/
  | mfSubSS (yop : BitVec 2) (xop : BitVec 3) (cond : Cond)
  /-- `[IF cond] MR = MR - xop * yop (SU)` (R217, R220). -/
  | mrSubSU (yop : BitVec 2) (xop : BitVec 3) (cond : Cond)
  /-- `[IF cond] MF = MR - xop * yop (SU)` (R217, R220). -/
  | mfSubSU (yop : BitVec 2) (xop : BitVec 3) (cond : Cond)
  /-- `[IF cond] MR = MR - xop * yop (US)` (R218, R220). -/
  | mrSubUS (yop : BitVec 2) (xop : BitVec 3) (cond : Cond)
  /-- `[IF cond] MF = MR - xop * yop (US)` (R218, R220). -/
  | mfSubUS (yop : BitVec 2) (xop : BitVec 3) (cond : Cond)
  /-- `[IF cond] MR = MR - xop * yop (UU)` (R219, R220). -/
  | mrSubUU (yop : BitVec 2) (xop : BitVec 3) (cond : Cond)
  /-- `[IF cond] MF = MR - xop * yop (UU)` (R219, R220). -/
  | mfSubUU (yop : BitVec 2) (xop : BitVec 3) (cond : Cond)
  /-- `[IF cond] AR = yop` (R173, R189). -/
  | arPassY (yop : BitVec 2) (xop : BitVec 3) (cond : Cond)
  /-- `[IF cond] AF = yop` (R173, R189). -/
  | afPassY (yop : BitVec 2) (xop : BitVec 3) (cond : Cond)
  /-- `[IF cond] AR = yop + 1` (R174, R189). -/
  | arIncY (yop : BitVec 2) (xop : BitVec 3) (cond : Cond)
  /-- `[IF cond] AF = yop + 1` (R174, R189). -/
  | afIncY (yop : BitVec 2) (xop : BitVec 3) (cond : Cond)
  /-- `[IF cond] AR = xop + yop + C` (R175, R189). -/
  | arAddC (yop : BitVec 2) (xop : BitVec 3) (cond : Cond)
  /-- `[IF cond] AF = xop + yop + C` (R175, R189). -/
  | afAddC (yop : BitVec 2) (xop : BitVec 3) (cond : Cond)
  /-- `[IF cond] AR = xop + yop` (R176, R189). -/
  | arAdd (yop : BitVec 2) (xop : BitVec 3) (cond : Cond)
  /-- `[IF cond] AF = xop + yop` (R176, R189). -/
  | afAdd (yop : BitVec 2) (xop : BitVec 3) (cond : Cond)
  /-- `[IF cond] AR = NOT yop` (R177, R189). -/
  | arNotY (yop : BitVec 2) (xop : BitVec 3) (cond : Cond)
  /-- `[IF cond] AF = NOT yop` (R177, R189). -/
  | afNotY (yop : BitVec 2) (xop : BitVec 3) (cond : Cond)
  /-- `[IF cond] AR = -yop` (R178, R189). -/
  | arNegY (yop : BitVec 2) (xop : BitVec 3) (cond : Cond)
  /-- `[IF cond] AF = -yop` (R178, R189). -/
  | afNegY (yop : BitVec 2) (xop : BitVec 3) (cond : Cond)
  /-- `[IF cond] AR = xop - yop + C - 1` (R179, R189). -/
  | arSubC (yop : BitVec 2) (xop : BitVec 3) (cond : Cond)
  /-- `[IF cond] AF = xop - yop + C - 1` (R179, R189). -/
  | afSubC (yop : BitVec 2) (xop : BitVec 3) (cond : Cond)
  /-- `[IF cond] AR = xop - yop` (R180, R189). -/
  | arSub (yop : BitVec 2) (xop : BitVec 3) (cond : Cond)
  /-- `[IF cond] AF = xop - yop` (R180, R189). -/
  | afSub (yop : BitVec 2) (xop : BitVec 3) (cond : Cond)
  /-- `[IF cond] AR = yop - 1` (R181, R189). -/
  | arDecY (yop : BitVec 2) (xop : BitVec 3) (cond : Cond)
  /-- `[IF cond] AF = yop - 1` (R181, R189). -/
  | afDecY (yop : BitVec 2) (xop : BitVec 3) (cond : Cond)
  /-- `[IF cond] AR = yop - xop` (R182, R189). -/
  | arRsub (yop : BitVec 2) (xop : BitVec 3) (cond : Cond)
  /-- `[IF cond] AF = yop - xop` (R182, R189). -/
  | afRsub (yop : BitVec 2) (xop : BitVec 3) (cond : Cond)
  /-- `[IF cond] AR = yop - xop + C - 1` (R183, R189). -/
  | arRsubC (yop : BitVec 2) (xop : BitVec 3) (cond : Cond)
  /-- `[IF cond] AF = yop - xop + C - 1` (R183, R189). -/
  | afRsubC (yop : BitVec 2) (xop : BitVec 3) (cond : Cond)
  /-- `[IF cond] AR = NOT xop` (R184, R189). -/
  | arNotX (yop : BitVec 2) (xop : BitVec 3) (cond : Cond)
  /-- `[IF cond] AF = NOT xop` (R184, R189). -/
  | afNotX (yop : BitVec 2) (xop : BitVec 3) (cond : Cond)
  /-- `[IF cond] AR = xop AND yop` (R185, R189). -/
  | arAnd (yop : BitVec 2) (xop : BitVec 3) (cond : Cond)
  /-- `[IF cond] AF = xop AND yop` (R185, R189). -/
  | afAnd (yop : BitVec 2) (xop : BitVec 3) (cond : Cond)
  /-- `[IF cond] AR = xop OR yop` (R186, R189). -/
  | arOr (yop : BitVec 2) (xop : BitVec 3) (cond : Cond)
  /-- `[IF cond] AF = xop OR yop` (R186, R189). -/
  | afOr (yop : BitVec 2) (xop : BitVec 3) (cond : Cond)
  /-- `[IF cond] AR = xop XOR yop` (R187, R189). -/
  | arXor (yop : BitVec 2) (xop : BitVec 3) (cond : Cond)
  /-- `[IF cond] AF = xop XOR yop` (R187, R189). -/
  | afXor (yop : BitVec 2) (xop : BitVec 3) (cond : Cond)
  /-- `[IF cond] AR = ABS xop` (R188, R189). -/
  | arAbsX (yop : BitVec 2) (xop : BitVec 3) (cond : Cond)
  /-- `[IF cond] AF = ABS xop` (R188, R189). -/
  | afAbsX (yop : BitVec 2) (xop : BitVec 3) (cond : Cond)
  /-- `[compute,] dreg = dreg` (R261). -/
  | computeMove (z : Dest) (amf : Amf) (yop : BitVec 2) (xop : BitVec 3) (ddreg : BitVec 4) (sdreg : BitVec 4)
  /-- `reg = data14` (R132). -/
  | loadImm14 (dst : Slot) (data : BitVec 14)
  /-- `dreg = data16` (R131). -/
  | loadImm16 (data : Word) (dreg : BitVec 4)
  /-- `dreg = PM(In, Mn)` with an empty compute part (R151, R264). -/
  | pmRead (z : Dest) (yop : BitVec 2) (xop : BitVec 3) (dreg : BitVec 4) (i : BitVec 2) (m : BitVec 2)
  /-- `compute, dreg = PM(In, Mn)` with an ALU function (R264). -/
  | pmReadAlu (z : Dest) (fn : AluFn) (yop : BitVec 2) (xop : BitVec 3) (dreg : BitVec 4) (i : BitVec 2) (m : BitVec 2)
  /-- `compute, dreg = PM(In, Mn)` with a MAC function 8 to 15 (R264). -/
  | pmReadMac8to15 (z : Dest) (fn : MacFn) (yop : BitVec 2) (xop : BitVec 3) (dreg : BitVec 4) (i : BitVec 2) (m : BitVec 2)
  /-- `compute, dreg = PM(In, Mn)` with a MAC function 4 to 7 (R264). -/
  | pmReadMac4to7 (z : Dest) (fn : MacFn) (yop : BitVec 2) (xop : BitVec 3) (dreg : BitVec 4) (i : BitVec 2) (m : BitVec 2)
  /-- `compute, dreg = PM(In, Mn)` with a MAC function 2 or 3 (R264). -/
  | pmReadMac2to3 (z : Dest) (fn : MacFn) (yop : BitVec 2) (xop : BitVec 3) (dreg : BitVec 4) (i : BitVec 2) (m : BitVec 2)
  /-- `compute, dreg = PM(In, Mn)` with a MAC function 1 (R264). -/
  | pmReadMac1 (z : Dest) (yop : BitVec 2) (xop : BitVec 3) (dreg : BitVec 4) (i : BitVec 2) (m : BitVec 2)
  /-- `PM(In, Mn) = dreg` with an empty compute part (R151, R265). -/
  | pmWrite (z : Dest) (yop : BitVec 2) (xop : BitVec 3) (dreg : BitVec 4) (i : BitVec 2) (m : BitVec 2)
  /-- `compute, PM(In, Mn) = dreg` with an ALU function (R265). -/
  | pmWriteAlu (z : Dest) (fn : AluFn) (yop : BitVec 2) (xop : BitVec 3) (dreg : BitVec 4) (i : BitVec 2) (m : BitVec 2)
  /-- `compute, PM(In, Mn) = dreg` with a MAC function 8 to 15 (R265). -/
  | pmWriteMac8to15 (z : Dest) (fn : MacFn) (yop : BitVec 2) (xop : BitVec 3) (dreg : BitVec 4) (i : BitVec 2) (m : BitVec 2)
  /-- `compute, PM(In, Mn) = dreg` with a MAC function 4 to 7 (R265). -/
  | pmWriteMac4to7 (z : Dest) (fn : MacFn) (yop : BitVec 2) (xop : BitVec 3) (dreg : BitVec 4) (i : BitVec 2) (m : BitVec 2)
  /-- `compute, PM(In, Mn) = dreg` with a MAC function 2 or 3 (R265). -/
  | pmWriteMac2to3 (z : Dest) (fn : MacFn) (yop : BitVec 2) (xop : BitVec 3) (dreg : BitVec 4) (i : BitVec 2) (m : BitVec 2)
  /-- `compute, PM(In, Mn) = dreg` with a MAC function 1 (R265). -/
  | pmWriteMac1 (z : Dest) (yop : BitVec 2) (xop : BitVec 3) (dreg : BitVec 4) (i : BitVec 2) (m : BitVec 2)
  /-- `dreg = DM(In, Mn)` with an empty compute part (R151, R262). -/
  | dmRead (g : Gen) (z : Dest) (yop : BitVec 2) (xop : BitVec 3) (dreg : BitVec 4) (i : BitVec 2) (m : BitVec 2)
  /-- `compute, dreg = DM(In, Mn)` with an ALU function (R262). -/
  | dmReadAlu (g : Gen) (z : Dest) (fn : AluFn) (yop : BitVec 2) (xop : BitVec 3) (dreg : BitVec 4) (i : BitVec 2) (m : BitVec 2)
  /-- `compute, dreg = DM(In, Mn)` with a MAC function 8 to 15 (R262). -/
  | dmReadMac8to15 (g : Gen) (z : Dest) (fn : MacFn) (yop : BitVec 2) (xop : BitVec 3) (dreg : BitVec 4) (i : BitVec 2) (m : BitVec 2)
  /-- `compute, dreg = DM(In, Mn)` with a MAC function 4 to 7 (R262). -/
  | dmReadMac4to7 (g : Gen) (z : Dest) (fn : MacFn) (yop : BitVec 2) (xop : BitVec 3) (dreg : BitVec 4) (i : BitVec 2) (m : BitVec 2)
  /-- `compute, dreg = DM(In, Mn)` with a MAC function 2 or 3 (R262). -/
  | dmReadMac2to3 (g : Gen) (z : Dest) (fn : MacFn) (yop : BitVec 2) (xop : BitVec 3) (dreg : BitVec 4) (i : BitVec 2) (m : BitVec 2)
  /-- `compute, dreg = DM(In, Mn)` with a MAC function 1 (R262). -/
  | dmReadMac1 (g : Gen) (z : Dest) (yop : BitVec 2) (xop : BitVec 3) (dreg : BitVec 4) (i : BitVec 2) (m : BitVec 2)
  /-- `DM(In, Mn) = dreg` with an empty compute part (R151, R263). -/
  | dmWrite (g : Gen) (z : Dest) (yop : BitVec 2) (xop : BitVec 3) (dreg : BitVec 4) (i : BitVec 2) (m : BitVec 2)
  /-- `compute, DM(In, Mn) = dreg` with an ALU function (R263). -/
  | dmWriteAlu (g : Gen) (z : Dest) (fn : AluFn) (yop : BitVec 2) (xop : BitVec 3) (dreg : BitVec 4) (i : BitVec 2) (m : BitVec 2)
  /-- `compute, DM(In, Mn) = dreg` with a MAC function 8 to 15 (R263). -/
  | dmWriteMac8to15 (g : Gen) (z : Dest) (fn : MacFn) (yop : BitVec 2) (xop : BitVec 3) (dreg : BitVec 4) (i : BitVec 2) (m : BitVec 2)
  /-- `compute, DM(In, Mn) = dreg` with a MAC function 4 to 7 (R263). -/
  | dmWriteMac4to7 (g : Gen) (z : Dest) (fn : MacFn) (yop : BitVec 2) (xop : BitVec 3) (dreg : BitVec 4) (i : BitVec 2) (m : BitVec 2)
  /-- `compute, DM(In, Mn) = dreg` with a MAC function 2 or 3 (R263). -/
  | dmWriteMac2to3 (g : Gen) (z : Dest) (fn : MacFn) (yop : BitVec 2) (xop : BitVec 3) (dreg : BitVec 4) (i : BitVec 2) (m : BitVec 2)
  /-- `compute, DM(In, Mn) = dreg` with a MAC function 1 (R263). -/
  | dmWriteMac1 (g : Gen) (z : Dest) (yop : BitVec 2) (xop : BitVec 3) (dreg : BitVec 4) (i : BitVec 2) (m : BitVec 2)
  /-- `reg = DM(addr)` (R148). -/
  | loadDirect (dst : Slot) (addr : Addr)
  /-- `DM(addr) = reg` (R149). -/
  | storeDirect (addr : Addr) (src : Slot)
  /-- `DM(In, Mn) = data16` (R150). -/
  | storeImm (g : Gen) (data : Word) (i : BitVec 2) (m : BitVec 2)
  /-- `[compute,] xreg = DM(In, Mn), yreg = PM(In, Mn)` (R266). -/
  | dualRead (pd : BitVec 2) (dd : BitVec 2) (amf : Amf) (yop : BitVec 2) (xop : BitVec 3) (pmi : BitVec 2) (pmm : BitVec 2) (dmi : BitVec 2) (dmm : BitVec 2)
deriving DecidableEq, Repr

end Sys2Proof
end

