-- ==== Sys2Proof/WellFormed.lean ====
section
/-!
DEFINITION. Which terms of `Instr` are instructions. The types of the fields already hold every bound of
30_encoding.md but one: the rows of spec/opcode_table.json that carry a MAC function in F_CPM and F_CDM each admit one
range of function codes (8 to 15, 4 to 7, 2 to 3).
-/
namespace Sys2Proof

/-- MAC function codes 8 to 15 (AMF = 01xxx): accumulate or subtract without rounding (44_mac.md R212 to R219). -/
def MacFn.in8to15 : MacFn → Bool
  | .addSS | .addSU | .addUS | .addUU | .subSS | .subSU | .subUS | .subUU => true
  | .noOp | .mulRnd | .addRnd | .subRnd | .mulSS | .mulSU | .mulUS | .mulUU => false

/-- MAC function codes 4 to 7 (AMF = 001xx): the plain products (44_mac.md R208 to R211). -/
def MacFn.in4to7 : MacFn → Bool
  | .mulSS | .mulSU | .mulUS | .mulUU => true
  | .noOp | .mulRnd | .addRnd | .subRnd | .addSS | .addSU | .addUS | .addUU | .subSS | .subSU | .subUS | .subUU => false

/-- MAC function codes 2 and 3 (AMF = 0001x): accumulate or subtract with rounding (44_mac.md R206, R207). -/
def MacFn.in2to3 : MacFn → Bool
  | .addRnd | .subRnd => true
  | .noOp | .mulRnd | .mulSS | .mulSU | .mulUS | .mulUU | .addSS | .addSU | .addUS | .addUU | .subSS | .subSU | .subUS
  | .subUU => false

/-- An instruction is well formed when its MAC function, if its row has one, lies in the row's range
(spec/opcode_table.json, rows of F_CPM and F_CDM; 30_encoding.md R103). -/
def Instr.wellFormed : Instr → Bool
  | .pmReadMac8to15 _ fn _ _ _ _ _ | .pmWriteMac8to15 _ fn _ _ _ _ _ | .dmReadMac8to15 _ _ fn _ _ _ _ _ | .dmWriteMac8to15 _ _ fn _ _ _ _ _ => fn.in8to15
  | .pmReadMac4to7 _ fn _ _ _ _ _ | .pmWriteMac4to7 _ fn _ _ _ _ _ | .dmReadMac4to7 _ _ fn _ _ _ _ _ | .dmWriteMac4to7 _ _ fn _ _ _ _ _ => fn.in4to7
  | .pmReadMac2to3 _ fn _ _ _ _ _ | .pmWriteMac2to3 _ fn _ _ _ _ _ | .dmReadMac2to3 _ _ fn _ _ _ _ _ | .dmWriteMac2to3 _ _ fn _ _ _ _ _ => fn.in2to3
  | .nop | .reserved01 | .reserved02 | .reserved03 | .reserved08 | .stackControl _ _ _ _ | .satMr | .divs _ _
  | .divq _ | .modify _ _ _ | .rts _ | .rti _ | .jumpInd _ _ | .callInd _ _ | .modeControl _ _ _ _ _ _ _
  | .moveReg _ _ | .lshiftHi _ _ | .orLshiftHi _ _ | .lshiftLo _ _ | .orLshiftLo _ _ | .ashiftHi _ _
  | .orAshiftHi _ _ | .ashiftLo _ _ | .orAshiftLo _ _ | .normHi _ _ | .orNormHi _ _ | .normLo _ _ | .orNormLo _ _
  | .expHi _ _ | .expHix _ _ | .expLo _ _ | .expAdj _ _ | .lshiftHiImm _ _ | .orLshiftHiImm _ _ | .lshiftLoImm _ _
  | .orLshiftLoImm _ _ | .ashiftHiImm _ _ | .orAshiftHiImm _ _ | .ashiftLoImm _ _ | .orAshiftLoImm _ _
  | .shiftImmReserved | .shiftMove _ _ _ _ | .shiftPmRead _ _ _ _ _ | .shiftPmWrite _ _ _ _ _
  | .shiftDmRead _ _ _ _ _ _ | .shiftDmWrite _ _ _ _ _ _ | .doUntil _ _ | .jump _ _ | .call _ _
  | .condNoCompute _ _ _ _ | .mrMulRnd _ _ _ | .mfMulRnd _ _ _ | .mrAddRnd _ _ _ | .mfAddRnd _ _ _ | .mrSubRnd _ _ _
  | .mfSubRnd _ _ _ | .mrMulSS _ _ _ | .mfMulSS _ _ _ | .mrMulSU _ _ _ | .mfMulSU _ _ _ | .mrMulUS _ _ _
  | .mfMulUS _ _ _ | .mrMulUU _ _ _ | .mfMulUU _ _ _ | .mrAddSS _ _ _ | .mfAddSS _ _ _ | .mrAddSU _ _ _
  | .mfAddSU _ _ _ | .mrAddUS _ _ _ | .mfAddUS _ _ _ | .mrAddUU _ _ _ | .mfAddUU _ _ _ | .mrSubSS _ _ _
  | .mfSubSS _ _ _ | .mrSubSU _ _ _ | .mfSubSU _ _ _ | .mrSubUS _ _ _ | .mfSubUS _ _ _ | .mrSubUU _ _ _
  | .mfSubUU _ _ _ | .arPassY _ _ _ | .afPassY _ _ _ | .arIncY _ _ _ | .afIncY _ _ _ | .arAddC _ _ _ | .afAddC _ _ _
  | .arAdd _ _ _ | .afAdd _ _ _ | .arNotY _ _ _ | .afNotY _ _ _ | .arNegY _ _ _ | .afNegY _ _ _ | .arSubC _ _ _
  | .afSubC _ _ _ | .arSub _ _ _ | .afSub _ _ _ | .arDecY _ _ _ | .afDecY _ _ _ | .arRsub _ _ _ | .afRsub _ _ _
  | .arRsubC _ _ _ | .afRsubC _ _ _ | .arNotX _ _ _ | .afNotX _ _ _ | .arAnd _ _ _ | .afAnd _ _ _ | .arOr _ _ _
  | .afOr _ _ _ | .arXor _ _ _ | .afXor _ _ _ | .arAbsX _ _ _ | .afAbsX _ _ _ | .computeMove _ _ _ _ _ _
  | .loadImm14 _ _ | .loadImm16 _ _ | .pmRead _ _ _ _ _ _ | .pmReadAlu _ _ _ _ _ _ _ | .pmReadMac1 _ _ _ _ _ _
  | .pmWrite _ _ _ _ _ _ | .pmWriteAlu _ _ _ _ _ _ _ | .pmWriteMac1 _ _ _ _ _ _ | .dmRead _ _ _ _ _ _ _
  | .dmReadAlu _ _ _ _ _ _ _ _ | .dmReadMac1 _ _ _ _ _ _ _ | .dmWrite _ _ _ _ _ _ _ | .dmWriteAlu _ _ _ _ _ _ _ _
  | .dmWriteMac1 _ _ _ _ _ _ _ | .loadDirect _ _ | .storeDirect _ _ | .storeImm _ _ _ _
  | .dualRead _ _ _ _ _ _ _ _ _ => true

end Sys2Proof
end

