-- ==== Sys2Proof/Decode.lean ====
section
/-!
DEFINITION. Decoding and encoding of instruction words (30_encoding.md R100 to R113). Decoding is total: every one of the
2^24 words has an instruction and none is refused (R101); the decoder looks at the top byte and the named fields alone
(R113). The encoder writes the fields back at their places and every ignored bit as zero.
-/
namespace Sys2Proof

/-! ### Codes of the enumerated fields -/

/-- The condition with code `c` (47_program_flow.md R281). -/
def Cond.ofBits (c : BitVec 4) : Cond :=
  match c.toNat with
  | 0 => .eq | 1 => .ne | 2 => .gt | 3 => .le
  | 4 => .lt | 5 => .ge | 6 => .av | 7 => .notAv
  | 8 => .ac | 9 => .notAc | 10 => .neg | 11 => .pos
  | 12 => .mv | 13 => .notMv | 14 => .notCe | _ => .always

/-- The code of a condition (47_program_flow.md R281). -/
def Cond.bits : Cond → BitVec 4
  | .eq => 0 | .ne => 1 | .gt => 2 | .le => 3
  | .lt => 4 | .ge => 5 | .av => 6 | .notAv => 7
  | .ac => 8 | .notAc => 9 | .neg => 10 | .pos => 11
  | .mv => 12 | .notMv => 13 | .notCe => 14 | .always => 15

/-- The ALU function with code `c` (30_encoding.md R103). -/
def AluFn.ofBits (c : BitVec 4) : AluFn :=
  match c.toNat with
  | 0 => .passY | 1 => .incY | 2 => .addC | 3 => .add
  | 4 => .notY | 5 => .negY | 6 => .subC | 7 => .sub
  | 8 => .decY | 9 => .rsub | 10 => .rsubC | 11 => .notX
  | 12 => .and | 13 => .or | 14 => .xor | _ => .absX

/-- The code of an ALU function (43_alu.md R173 to R188). -/
def AluFn.bits : AluFn → BitVec 4
  | .passY => 0 | .incY => 1 | .addC => 2 | .add => 3
  | .notY => 4 | .negY => 5 | .subC => 6 | .sub => 7
  | .decY => 8 | .rsub => 9 | .rsubC => 10 | .notX => 11
  | .and => 12 | .or => 13 | .xor => 14 | .absX => 15

/-- The MAC function with code `c` (30_encoding.md R103). -/
def MacFn.ofBits (c : BitVec 4) : MacFn :=
  match c.toNat with
  | 0 => .noOp | 1 => .mulRnd | 2 => .addRnd | 3 => .subRnd
  | 4 => .mulSS | 5 => .mulSU | 6 => .mulUS | 7 => .mulUU
  | 8 => .addSS | 9 => .addSU | 10 => .addUS | 11 => .addUU
  | 12 => .subSS | 13 => .subSU | 14 => .subUS | _ => .subUU

/-- The code of a MAC function (44_mac.md R204 to R219). -/
def MacFn.bits : MacFn → BitVec 4
  | .noOp => 0 | .mulRnd => 1 | .addRnd => 2 | .subRnd => 3
  | .mulSS => 4 | .mulSU => 5 | .mulUS => 6 | .mulUU => 7
  | .addSS => 8 | .addSU => 9 | .addUS => 10 | .addUU => 11
  | .subSS => 12 | .subSU => 13 | .subUS => 14 | .subUU => 15

/-- The shifter function with code `c` (30_encoding.md R105). -/
def ShFn.ofBits (c : BitVec 4) : ShFn :=
  match c.toNat with
  | 0 => .lshiftHi | 1 => .orLshiftHi | 2 => .lshiftLo | 3 => .orLshiftLo
  | 4 => .ashiftHi | 5 => .orAshiftHi | 6 => .ashiftLo | 7 => .orAshiftLo
  | 8 => .normHi | 9 => .orNormHi | 10 => .normLo | 11 => .orNormLo
  | 12 => .expHi | 13 => .expHix | 14 => .expLo | _ => .expAdj

/-- The code of a shifter function (45_shifter.md R232 to R247). -/
def ShFn.bits : ShFn → BitVec 4
  | .lshiftHi => 0 | .orLshiftHi => 1 | .lshiftLo => 2 | .orLshiftLo => 3
  | .ashiftHi => 4 | .orAshiftHi => 5 | .ashiftLo => 6 | .orAshiftLo => 7
  | .normHi => 8 | .orNormHi => 9 | .normLo => 10 | .orNormLo => 11
  | .expHi => 12 | .expHix => 13 | .expLo => 14 | .expAdj => 15

/-- AMF: bit 4 selects the ALU, bits 3:0 are the function code (30_encoding.md R103). -/
def Amf.ofBits (c : BitVec 5) : Amf :=
  if c.extractLsb' 4 1 = 1 then .alu (AluFn.ofBits (c.extractLsb' 0 4)) else .mac (MacFn.ofBits (c.extractLsb' 0 4))

/-- The five bits of AMF (30_encoding.md R103). -/
def Amf.bits : Amf → BitVec 5
  | .mac fn => fn.bits.setWidth 5
  | .alu fn => 0x10 ||| fn.bits.setWidth 5

/-- Z = 1 is the feedback destination (30_encoding.md R103). -/
def Dest.ofBits (z : BitVec 1) : Dest := if z = 1 then .feedback else .primary

/-- The bit Z (30_encoding.md R103). -/
def Dest.bits : Dest → BitVec 1 | .primary => 0 | .feedback => 1

/-- G = 1 is DAG2 (30_encoding.md R108). -/
def Gen.ofBits (g : BitVec 1) : Gen := if g = 1 then .dag2 else .dag1

/-- The bit G (30_encoding.md R108). -/
def Gen.bits : Gen → BitVec 1 | .dag1 => 0 | .dag2 => 1

/-! ### The decoder, one function per group of formats of R102 -/

/-- The field of `len` bits whose lowest bit is bit `lo` of the instruction word. -/
def fieldAt (op : PWord) (lo len : Nat) : BitVec len := op.extractLsb' lo len

/-- The fields I and M at 3:2 and 1:0, XOP at 10:8, YOP at 12:11, DREG at 7:4, COND at 3:0 (30_encoding.md R102). -/
def fieldI (op : PWord) : BitVec 2 := fieldAt op 2 2

@[inherit_doc fieldI] def fieldM (op : PWord) : BitVec 2 := fieldAt op 0 2
@[inherit_doc fieldI] def fieldXop (op : PWord) : BitVec 3 := fieldAt op 8 3
@[inherit_doc fieldI] def fieldYop (op : PWord) : BitVec 2 := fieldAt op 11 2
@[inherit_doc fieldI] def fieldDreg (op : PWord) : BitVec 4 := fieldAt op 4 4
@[inherit_doc fieldI] def fieldCond (op : PWord) : Cond := Cond.ofBits (fieldAt op 0 4)

/-- Z at 18, AMF at 17:13, SF at 14:11, G at 20 (30_encoding.md R102). -/
def fieldZ (op : PWord) : Dest := Dest.ofBits (fieldAt op 18 1)

@[inherit_doc fieldZ] def fieldAmf (op : PWord) : Amf := Amf.ofBits (fieldAt op 13 5)
@[inherit_doc fieldZ] def fieldSf (op : PWord) : ShFn := ShFn.ofBits (fieldAt op 11 4)
@[inherit_doc fieldZ] def fieldG (op : PWord) : Gen := Gen.ofBits (fieldAt op 20 1)

/-- F_CCOND with AMF[4] = 1: the row of an ALU function and its destination (43_alu.md R189). -/
def condAlu (z : Dest) (fn : AluFn) (yop : BitVec 2) (xop : BitVec 3) (cond : Cond) : Instr :=
  match z, fn with
  | .primary, .passY => .arPassY yop xop cond
  | .primary, .incY => .arIncY yop xop cond
  | .primary, .addC => .arAddC yop xop cond
  | .primary, .add => .arAdd yop xop cond
  | .primary, .notY => .arNotY yop xop cond
  | .primary, .negY => .arNegY yop xop cond
  | .primary, .subC => .arSubC yop xop cond
  | .primary, .sub => .arSub yop xop cond
  | .primary, .decY => .arDecY yop xop cond
  | .primary, .rsub => .arRsub yop xop cond
  | .primary, .rsubC => .arRsubC yop xop cond
  | .primary, .notX => .arNotX yop xop cond
  | .primary, .and => .arAnd yop xop cond
  | .primary, .or => .arOr yop xop cond
  | .primary, .xor => .arXor yop xop cond
  | .primary, .absX => .arAbsX yop xop cond
  | .feedback, .passY => .afPassY yop xop cond
  | .feedback, .incY => .afIncY yop xop cond
  | .feedback, .addC => .afAddC yop xop cond
  | .feedback, .add => .afAdd yop xop cond
  | .feedback, .notY => .afNotY yop xop cond
  | .feedback, .negY => .afNegY yop xop cond
  | .feedback, .subC => .afSubC yop xop cond
  | .feedback, .sub => .afSub yop xop cond
  | .feedback, .decY => .afDecY yop xop cond
  | .feedback, .rsub => .afRsub yop xop cond
  | .feedback, .rsubC => .afRsubC yop xop cond
  | .feedback, .notX => .afNotX yop xop cond
  | .feedback, .and => .afAnd yop xop cond
  | .feedback, .or => .afOr yop xop cond
  | .feedback, .xor => .afXor yop xop cond
  | .feedback, .absX => .afAbsX yop xop cond

/-- F_CCOND with AMF[4] = 0: the row of a MAC function and its destination (44_mac.md R220). -/
def condMac (z : Dest) (fn : MacFn) (yop : BitVec 2) (xop : BitVec 3) (cond : Cond) : Instr :=
  match z, fn with
  | z, .noOp => .condNoCompute z yop xop cond
  | .primary, .mulRnd => .mrMulRnd yop xop cond
  | .primary, .addRnd => .mrAddRnd yop xop cond
  | .primary, .subRnd => .mrSubRnd yop xop cond
  | .primary, .mulSS => .mrMulSS yop xop cond
  | .primary, .mulSU => .mrMulSU yop xop cond
  | .primary, .mulUS => .mrMulUS yop xop cond
  | .primary, .mulUU => .mrMulUU yop xop cond
  | .primary, .addSS => .mrAddSS yop xop cond
  | .primary, .addSU => .mrAddSU yop xop cond
  | .primary, .addUS => .mrAddUS yop xop cond
  | .primary, .addUU => .mrAddUU yop xop cond
  | .primary, .subSS => .mrSubSS yop xop cond
  | .primary, .subSU => .mrSubSU yop xop cond
  | .primary, .subUS => .mrSubUS yop xop cond
  | .primary, .subUU => .mrSubUU yop xop cond
  | .feedback, .mulRnd => .mfMulRnd yop xop cond
  | .feedback, .addRnd => .mfAddRnd yop xop cond
  | .feedback, .subRnd => .mfSubRnd yop xop cond
  | .feedback, .mulSS => .mfMulSS yop xop cond
  | .feedback, .mulSU => .mfMulSU yop xop cond
  | .feedback, .mulUS => .mfMulUS yop xop cond
  | .feedback, .mulUU => .mfMulUU yop xop cond
  | .feedback, .addSS => .mfAddSS yop xop cond
  | .feedback, .addSU => .mfAddSU yop xop cond
  | .feedback, .addUS => .mfAddUS yop xop cond
  | .feedback, .addUU => .mfAddUU yop xop cond
  | .feedback, .subSS => .mfSubSS yop xop cond
  | .feedback, .subSU => .mfSubSU yop xop cond
  | .feedback, .subUS => .mfSubUS yop xop cond
  | .feedback, .subUU => .mfSubUU yop xop cond

/-- F_CCOND: the conditional compute rows (30_encoding.md R111, top bytes 0x20 to 0x27). -/
def condCompute (z : Dest) (amf : Amf) (yop : BitVec 2) (xop : BitVec 3) (cond : Cond) : Instr :=
  match amf with
  | .alu fn => condAlu z fn yop xop cond
  | .mac fn => condMac z fn yop xop cond

/-- F_SCOND: the conditional shift rows (45_shifter.md R248). -/
def condShift (sf : ShFn) (xop : BitVec 3) (cond : Cond) : Instr :=
  match sf with
  | .lshiftHi => .lshiftHi xop cond
  | .orLshiftHi => .orLshiftHi xop cond
  | .lshiftLo => .lshiftLo xop cond
  | .orLshiftLo => .orLshiftLo xop cond
  | .ashiftHi => .ashiftHi xop cond
  | .orAshiftHi => .orAshiftHi xop cond
  | .ashiftLo => .ashiftLo xop cond
  | .orAshiftLo => .orAshiftLo xop cond
  | .normHi => .normHi xop cond
  | .orNormHi => .orNormHi xop cond
  | .normLo => .normLo xop cond
  | .orNormLo => .orNormLo xop cond
  | .expHi => .expHi xop cond
  | .expHix => .expHix xop cond
  | .expLo => .expLo xop cond
  | .expAdj => .expAdj xop cond

/-- F_SIMM: the shift-by-immediate rows; SF = 8 to 15 is the reserved row (45_shifter.md R249). -/
def immShift (sf : ShFn) (xop : BitVec 3) (n : BitVec 8) : Instr :=
  match sf with
  | .lshiftHi => .lshiftHiImm xop n
  | .orLshiftHi => .orLshiftHiImm xop n
  | .lshiftLo => .lshiftLoImm xop n
  | .orLshiftLo => .orLshiftLoImm xop n
  | .ashiftHi => .ashiftHiImm xop n
  | .orAshiftHi => .orAshiftHiImm xop n
  | .ashiftLo => .ashiftLoImm xop n
  | .orAshiftLo => .orAshiftLoImm xop n
  | .normHi | .orNormHi | .normLo | .orNormLo | .expHi | .expHix | .expLo | .expAdj => .shiftImmReserved

/-- F_CPM with D = 0: the row that the function selects (46_multifunction.md R264). -/
def computePmRead (z : Dest) (amf : Amf) (yop : BitVec 2) (xop : BitVec 3) (dreg : BitVec 4) (i m : BitVec 2) : Instr :=
  match amf with
  | .alu fn => .pmReadAlu z fn yop xop dreg i m
  | .mac .noOp => .pmRead z yop xop dreg i m
  | .mac .mulRnd => .pmReadMac1 z yop xop dreg i m
  | .mac fn =>
    if fn.in2to3 then .pmReadMac2to3 z fn yop xop dreg i m
    else if fn.in4to7 then .pmReadMac4to7 z fn yop xop dreg i m
    else .pmReadMac8to15 z fn yop xop dreg i m

/-- F_CPM with D = 1: the row that the function selects (46_multifunction.md R265). -/
def computePmWrite (z : Dest) (amf : Amf) (yop : BitVec 2) (xop : BitVec 3) (dreg : BitVec 4) (i m : BitVec 2) : Instr :=
  match amf with
  | .alu fn => .pmWriteAlu z fn yop xop dreg i m
  | .mac .noOp => .pmWrite z yop xop dreg i m
  | .mac .mulRnd => .pmWriteMac1 z yop xop dreg i m
  | .mac fn =>
    if fn.in2to3 then .pmWriteMac2to3 z fn yop xop dreg i m
    else if fn.in4to7 then .pmWriteMac4to7 z fn yop xop dreg i m
    else .pmWriteMac8to15 z fn yop xop dreg i m

/-- F_CDM with D = 0: the row that the function selects (46_multifunction.md R262). -/
def computeDmRead (g : Gen) (z : Dest) (amf : Amf) (yop : BitVec 2) (xop : BitVec 3) (dreg : BitVec 4) (i m : BitVec 2) : Instr :=
  match amf with
  | .alu fn => .dmReadAlu g z fn yop xop dreg i m
  | .mac .noOp => .dmRead g z yop xop dreg i m
  | .mac .mulRnd => .dmReadMac1 g z yop xop dreg i m
  | .mac fn =>
    if fn.in2to3 then .dmReadMac2to3 g z fn yop xop dreg i m
    else if fn.in4to7 then .dmReadMac4to7 g z fn yop xop dreg i m
    else .dmReadMac8to15 g z fn yop xop dreg i m

/-- F_CDM with D = 1: the row that the function selects (46_multifunction.md R263). -/
def computeDmWrite (g : Gen) (z : Dest) (amf : Amf) (yop : BitVec 2) (xop : BitVec 3) (dreg : BitVec 4) (i m : BitVec 2) : Instr :=
  match amf with
  | .alu fn => .dmWriteAlu g z fn yop xop dreg i m
  | .mac .noOp => .dmWrite g z yop xop dreg i m
  | .mac .mulRnd => .dmWriteMac1 g z yop xop dreg i m
  | .mac fn =>
    if fn.in2to3 then .dmWriteMac2to3 g z fn yop xop dreg i m
    else if fn.in4to7 then .dmWriteMac4to7 g z fn yop xop dreg i m
    else .dmWriteMac8to15 g z fn yop xop dreg i m

/-- The formats whose top byte is 0x00 to 0x13 (30_encoding.md R102, R111). -/
def decodeLow (op : PWord) : Instr :=
  match (fieldAt op 16 8).toNat with
  | 0x00 => .nop
  | 0x01 => .reserved01
  | 0x02 => .reserved02
  | 0x03 => .reserved03
  | 0x04 => .stackControl (fieldAt op 4 1 = 1) (fieldAt op 3 1 = 1) (fieldAt op 2 1 = 1) (fieldAt op 0 2)
  | 0x05 => .satMr
  | 0x06 => .divs (fieldYop op) (fieldXop op)
  | 0x07 => .divq (fieldXop op)
  | 0x08 => .reserved08
  | 0x09 => .modify (Gen.ofBits (fieldAt op 4 1)) (fieldI op) (fieldM op)
  | 0x0A => if fieldAt op 4 1 = 1 then .rti (fieldCond op) else .rts (fieldCond op)
  | 0x0B =>
    if fieldAt op 4 1 = 1 then .callInd (fieldAt op 6 2) (fieldCond op) else .jumpInd (fieldAt op 6 2) (fieldCond op)
  | 0x0C =>
    .modeControl (fieldAt op 14 2) (fieldAt op 12 2) (fieldAt op 10 2) (fieldAt op 8 2) (fieldAt op 6 2) (fieldAt op 4 2)
      (fieldAt op 2 2)
  | 0x0D => .moveReg ⟨fieldAt op 10 2, fieldAt op 4 4⟩ ⟨fieldAt op 8 2, fieldAt op 0 4⟩
  | 0x0E => condShift (fieldSf op) (fieldXop op) (fieldCond op)
  | 0x0F => immShift (fieldSf op) (fieldXop op) (fieldAt op 0 8)
  | 0x10 => .shiftMove (fieldSf op) (fieldXop op) (fieldAt op 4 4) (fieldAt op 0 4)
  | 0x11 =>
    if fieldAt op 15 1 = 1 then .shiftPmWrite (fieldSf op) (fieldXop op) (fieldDreg op) (fieldI op) (fieldM op)
    else .shiftPmRead (fieldSf op) (fieldXop op) (fieldDreg op) (fieldI op) (fieldM op)
  | _ =>
    if fieldAt op 15 1 = 1 then
      .shiftDmWrite (Gen.ofBits (fieldAt op 16 1)) (fieldSf op) (fieldXop op) (fieldDreg op) (fieldI op) (fieldM op)
    else .shiftDmRead (Gen.ofBits (fieldAt op 16 1)) (fieldSf op) (fieldXop op) (fieldDreg op) (fieldI op) (fieldM op)

/-- The instruction of a word: the leading bits of R102 select the format, the top byte the rest (R101, R111). -/
def decode (op : PWord) : Instr :=
  if fieldAt op 22 2 = 0b11 then
    .dualRead (fieldAt op 20 2) (fieldAt op 18 2) (fieldAmf op) (fieldYop op) (fieldXop op) (fieldAt op 6 2)
      (fieldAt op 4 2) (fieldAt op 2 2) (fieldAt op 0 2)
  else if fieldAt op 21 3 = 0b101 then .storeImm (fieldG op) (fieldAt op 4 16) (fieldI op) (fieldM op)
  else if fieldAt op 20 4 = 0b1001 then .storeDirect (fieldAt op 4 14) ⟨fieldAt op 18 2, fieldAt op 0 4⟩
  else if fieldAt op 20 4 = 0b1000 then .loadDirect ⟨fieldAt op 18 2, fieldAt op 0 4⟩ (fieldAt op 4 14)
  else if fieldAt op 21 3 = 0b011 then
    if fieldAt op 19 1 = 1 then
      computeDmWrite (fieldG op) (fieldZ op) (fieldAmf op) (fieldYop op) (fieldXop op) (fieldDreg op) (fieldI op) (fieldM op)
    else
      computeDmRead (fieldG op) (fieldZ op) (fieldAmf op) (fieldYop op) (fieldXop op) (fieldDreg op) (fieldI op) (fieldM op)
  else if fieldAt op 20 4 = 0b0101 then
    if fieldAt op 19 1 = 1 then
      computePmWrite (fieldZ op) (fieldAmf op) (fieldYop op) (fieldXop op) (fieldDreg op) (fieldI op) (fieldM op)
    else computePmRead (fieldZ op) (fieldAmf op) (fieldYop op) (fieldXop op) (fieldDreg op) (fieldI op) (fieldM op)
  else if fieldAt op 20 4 = 0b0100 then .loadImm16 (fieldAt op 4 16) (fieldAt op 0 4)
  else if fieldAt op 20 4 = 0b0011 then .loadImm14 ⟨fieldAt op 18 2, fieldAt op 0 4⟩ (fieldAt op 4 14)
  else if fieldAt op 19 5 = 0b00101 then
    .computeMove (fieldZ op) (fieldAmf op) (fieldYop op) (fieldXop op) (fieldAt op 4 4) (fieldAt op 0 4)
  else if fieldAt op 19 5 = 0b00100 then condCompute (fieldZ op) (fieldAmf op) (fieldYop op) (fieldXop op) (fieldCond op)
  else if fieldAt op 18 6 = 0b000111 then .call (fieldAt op 4 14) (fieldCond op)
  else if fieldAt op 18 6 = 0b000110 then .jump (fieldAt op 4 14) (fieldCond op)
  else if fieldAt op 18 6 = 0b000101 then .doUntil (fieldAt op 4 14) (fieldCond op)
  else decodeLow op

/-! ### The encoder: the same layouts, read the other way -/

/-- A field placed with its lowest bit at bit `lo` of the word, every other bit zero. -/
def putAt {n : Nat} (lo : Nat) (v : BitVec n) : PWord := v.setWidth 24 <<< lo

/-- A one-bit field of a flag. -/
def flagBit (b : Bool) : BitVec 1 := BitVec.ofBool b

/-- I and M of the formats that have them at 3:2 and 1:0 (30_encoding.md R102). -/
def putIM (i m : BitVec 2) : PWord := putAt 2 i ||| putAt 0 m

/-- AMF, YOP and XOP at 17:13, 12:11 and 10:8 (30_encoding.md R102). -/
def putCompute (amf : Amf) (yop : BitVec 2) (xop : BitVec 3) : PWord :=
  putAt 13 amf.bits ||| putAt 11 yop ||| putAt 8 xop

/-- SF and XOP at 14:11 and 10:8 (30_encoding.md R102). -/
def putShift (sf : ShFn) (xop : BitVec 3) : PWord := putAt 11 sf.bits ||| putAt 8 xop

/-- F_CCOND (30_encoding.md R102). -/
def encodeCondCompute (z : Dest) (amf : Amf) (yop : BitVec 2) (xop : BitVec 3) (cond : Cond) : PWord :=
  0x200000 ||| putAt 18 z.bits ||| putCompute amf yop xop ||| putAt 0 cond.bits

/-- F_SCOND (30_encoding.md R102). -/
def encodeCondShift (sf : ShFn) (xop : BitVec 3) (cond : Cond) : PWord :=
  0x0E0000 ||| putShift sf xop ||| putAt 0 cond.bits

/-- F_SIMM (30_encoding.md R102). -/
def encodeImmShift (sf : ShFn) (xop : BitVec 3) (n : BitVec 8) : PWord :=
  0x0F0000 ||| putShift sf xop ||| putAt 0 n

/-- F_CPM, `base` with the direction bit D (30_encoding.md R102). -/
def encodePm (base : PWord) (z : Dest) (amf : Amf) (yop : BitVec 2) (xop : BitVec 3) (dreg : BitVec 4) (i m : BitVec 2) :
    PWord :=
  base ||| putAt 18 z.bits ||| putCompute amf yop xop ||| putAt 4 dreg ||| putIM i m

/-- F_CDM, `base` with the direction bit D (30_encoding.md R102). -/
def encodeDm (base : PWord) (g : Gen) (z : Dest) (amf : Amf) (yop : BitVec 2) (xop : BitVec 3) (dreg : BitVec 4)
    (i m : BitVec 2) : PWord :=
  base ||| putAt 20 g.bits ||| putAt 18 z.bits ||| putCompute amf yop xop ||| putAt 4 dreg ||| putIM i m

/-- The word of an instruction by the layouts of 30_encoding.md R102, ignored bits zero (R113). -/
def encode : Instr → PWord
  | .nop => 0x000000
  | .reserved01 => 0x010000
  | .reserved02 => 0x020000
  | .reserved03 => 0x030000
  | .reserved08 => 0x080000
  | .stackControl pp lp cp spp =>
    0x040000 ||| putAt 4 (flagBit pp) ||| putAt 3 (flagBit lp) ||| putAt 2 (flagBit cp) ||| putAt 0 spp
  | .satMr => 0x050000
  | .divs yop xop => 0x060000 ||| putAt 11 yop ||| putAt 8 xop
  | .divq xop => 0x071000 ||| putAt 8 xop
  | .modify g i m => 0x090000 ||| putAt 4 g.bits ||| putIM i m
  | .rts cond => 0x0A0000 ||| putAt 0 cond.bits
  | .rti cond => 0x0A0010 ||| putAt 0 cond.bits
  | .jumpInd i cond => 0x0B0000 ||| putAt 6 i ||| putAt 0 cond.bits
  | .callInd i cond => 0x0B0010 ||| putAt 6 i ||| putAt 0 cond.bits
  | .modeControl ti mm sat ol br sr gm =>
    0x0C0000 ||| putAt 14 ti ||| putAt 12 mm ||| putAt 10 sat ||| putAt 8 ol ||| putAt 6 br ||| putAt 4 sr ||| putAt 2 gm
  | .moveReg dst src =>
    0x0D0000 ||| putAt 10 dst.group ||| putAt 8 src.group ||| putAt 4 dst.index ||| putAt 0 src.index
  | .lshiftHi xop cond => encodeCondShift .lshiftHi xop cond
  | .orLshiftHi xop cond => encodeCondShift .orLshiftHi xop cond
  | .lshiftLo xop cond => encodeCondShift .lshiftLo xop cond
  | .orLshiftLo xop cond => encodeCondShift .orLshiftLo xop cond
  | .ashiftHi xop cond => encodeCondShift .ashiftHi xop cond
  | .orAshiftHi xop cond => encodeCondShift .orAshiftHi xop cond
  | .ashiftLo xop cond => encodeCondShift .ashiftLo xop cond
  | .orAshiftLo xop cond => encodeCondShift .orAshiftLo xop cond
  | .normHi xop cond => encodeCondShift .normHi xop cond
  | .orNormHi xop cond => encodeCondShift .orNormHi xop cond
  | .normLo xop cond => encodeCondShift .normLo xop cond
  | .orNormLo xop cond => encodeCondShift .orNormLo xop cond
  | .expHi xop cond => encodeCondShift .expHi xop cond
  | .expHix xop cond => encodeCondShift .expHix xop cond
  | .expLo xop cond => encodeCondShift .expLo xop cond
  | .expAdj xop cond => encodeCondShift .expAdj xop cond
  | .lshiftHiImm xop n => encodeImmShift .lshiftHi xop n
  | .orLshiftHiImm xop n => encodeImmShift .orLshiftHi xop n
  | .lshiftLoImm xop n => encodeImmShift .lshiftLo xop n
  | .orLshiftLoImm xop n => encodeImmShift .orLshiftLo xop n
  | .ashiftHiImm xop n => encodeImmShift .ashiftHi xop n
  | .orAshiftHiImm xop n => encodeImmShift .orAshiftHi xop n
  | .ashiftLoImm xop n => encodeImmShift .ashiftLo xop n
  | .orAshiftLoImm xop n => encodeImmShift .orAshiftLo xop n
  | .shiftImmReserved => 0x0F4000
  | .shiftMove sf xop ddreg sdreg => 0x100000 ||| putShift sf xop ||| putAt 4 ddreg ||| putAt 0 sdreg
  | .shiftPmRead sf xop dreg i m => 0x110000 ||| putShift sf xop ||| putAt 4 dreg ||| putIM i m
  | .shiftPmWrite sf xop dreg i m => 0x118000 ||| putShift sf xop ||| putAt 4 dreg ||| putIM i m
  | .shiftDmRead g sf xop dreg i m => 0x120000 ||| putAt 16 g.bits ||| putShift sf xop ||| putAt 4 dreg ||| putIM i m
  | .shiftDmWrite g sf xop dreg i m => 0x128000 ||| putAt 16 g.bits ||| putShift sf xop ||| putAt 4 dreg ||| putIM i m
  | .doUntil addr term => 0x140000 ||| putAt 4 addr ||| putAt 0 term.bits
  | .jump addr cond => 0x180000 ||| putAt 4 addr ||| putAt 0 cond.bits
  | .call addr cond => 0x1C0000 ||| putAt 4 addr ||| putAt 0 cond.bits
  | .condNoCompute z yop xop cond => encodeCondCompute z (.mac .noOp) yop xop cond
  | .mrMulRnd yop xop cond => encodeCondCompute .primary (.mac .mulRnd) yop xop cond
  | .mfMulRnd yop xop cond => encodeCondCompute .feedback (.mac .mulRnd) yop xop cond
  | .mrAddRnd yop xop cond => encodeCondCompute .primary (.mac .addRnd) yop xop cond
  | .mfAddRnd yop xop cond => encodeCondCompute .feedback (.mac .addRnd) yop xop cond
  | .mrSubRnd yop xop cond => encodeCondCompute .primary (.mac .subRnd) yop xop cond
  | .mfSubRnd yop xop cond => encodeCondCompute .feedback (.mac .subRnd) yop xop cond
  | .mrMulSS yop xop cond => encodeCondCompute .primary (.mac .mulSS) yop xop cond
  | .mfMulSS yop xop cond => encodeCondCompute .feedback (.mac .mulSS) yop xop cond
  | .mrMulSU yop xop cond => encodeCondCompute .primary (.mac .mulSU) yop xop cond
  | .mfMulSU yop xop cond => encodeCondCompute .feedback (.mac .mulSU) yop xop cond
  | .mrMulUS yop xop cond => encodeCondCompute .primary (.mac .mulUS) yop xop cond
  | .mfMulUS yop xop cond => encodeCondCompute .feedback (.mac .mulUS) yop xop cond
  | .mrMulUU yop xop cond => encodeCondCompute .primary (.mac .mulUU) yop xop cond
  | .mfMulUU yop xop cond => encodeCondCompute .feedback (.mac .mulUU) yop xop cond
  | .mrAddSS yop xop cond => encodeCondCompute .primary (.mac .addSS) yop xop cond
  | .mfAddSS yop xop cond => encodeCondCompute .feedback (.mac .addSS) yop xop cond
  | .mrAddSU yop xop cond => encodeCondCompute .primary (.mac .addSU) yop xop cond
  | .mfAddSU yop xop cond => encodeCondCompute .feedback (.mac .addSU) yop xop cond
  | .mrAddUS yop xop cond => encodeCondCompute .primary (.mac .addUS) yop xop cond
  | .mfAddUS yop xop cond => encodeCondCompute .feedback (.mac .addUS) yop xop cond
  | .mrAddUU yop xop cond => encodeCondCompute .primary (.mac .addUU) yop xop cond
  | .mfAddUU yop xop cond => encodeCondCompute .feedback (.mac .addUU) yop xop cond
  | .mrSubSS yop xop cond => encodeCondCompute .primary (.mac .subSS) yop xop cond
  | .mfSubSS yop xop cond => encodeCondCompute .feedback (.mac .subSS) yop xop cond
  | .mrSubSU yop xop cond => encodeCondCompute .primary (.mac .subSU) yop xop cond
  | .mfSubSU yop xop cond => encodeCondCompute .feedback (.mac .subSU) yop xop cond
  | .mrSubUS yop xop cond => encodeCondCompute .primary (.mac .subUS) yop xop cond
  | .mfSubUS yop xop cond => encodeCondCompute .feedback (.mac .subUS) yop xop cond
  | .mrSubUU yop xop cond => encodeCondCompute .primary (.mac .subUU) yop xop cond
  | .mfSubUU yop xop cond => encodeCondCompute .feedback (.mac .subUU) yop xop cond
  | .arPassY yop xop cond => encodeCondCompute .primary (.alu .passY) yop xop cond
  | .afPassY yop xop cond => encodeCondCompute .feedback (.alu .passY) yop xop cond
  | .arIncY yop xop cond => encodeCondCompute .primary (.alu .incY) yop xop cond
  | .afIncY yop xop cond => encodeCondCompute .feedback (.alu .incY) yop xop cond
  | .arAddC yop xop cond => encodeCondCompute .primary (.alu .addC) yop xop cond
  | .afAddC yop xop cond => encodeCondCompute .feedback (.alu .addC) yop xop cond
  | .arAdd yop xop cond => encodeCondCompute .primary (.alu .add) yop xop cond
  | .afAdd yop xop cond => encodeCondCompute .feedback (.alu .add) yop xop cond
  | .arNotY yop xop cond => encodeCondCompute .primary (.alu .notY) yop xop cond
  | .afNotY yop xop cond => encodeCondCompute .feedback (.alu .notY) yop xop cond
  | .arNegY yop xop cond => encodeCondCompute .primary (.alu .negY) yop xop cond
  | .afNegY yop xop cond => encodeCondCompute .feedback (.alu .negY) yop xop cond
  | .arSubC yop xop cond => encodeCondCompute .primary (.alu .subC) yop xop cond
  | .afSubC yop xop cond => encodeCondCompute .feedback (.alu .subC) yop xop cond
  | .arSub yop xop cond => encodeCondCompute .primary (.alu .sub) yop xop cond
  | .afSub yop xop cond => encodeCondCompute .feedback (.alu .sub) yop xop cond
  | .arDecY yop xop cond => encodeCondCompute .primary (.alu .decY) yop xop cond
  | .afDecY yop xop cond => encodeCondCompute .feedback (.alu .decY) yop xop cond
  | .arRsub yop xop cond => encodeCondCompute .primary (.alu .rsub) yop xop cond
  | .afRsub yop xop cond => encodeCondCompute .feedback (.alu .rsub) yop xop cond
  | .arRsubC yop xop cond => encodeCondCompute .primary (.alu .rsubC) yop xop cond
  | .afRsubC yop xop cond => encodeCondCompute .feedback (.alu .rsubC) yop xop cond
  | .arNotX yop xop cond => encodeCondCompute .primary (.alu .notX) yop xop cond
  | .afNotX yop xop cond => encodeCondCompute .feedback (.alu .notX) yop xop cond
  | .arAnd yop xop cond => encodeCondCompute .primary (.alu .and) yop xop cond
  | .afAnd yop xop cond => encodeCondCompute .feedback (.alu .and) yop xop cond
  | .arOr yop xop cond => encodeCondCompute .primary (.alu .or) yop xop cond
  | .afOr yop xop cond => encodeCondCompute .feedback (.alu .or) yop xop cond
  | .arXor yop xop cond => encodeCondCompute .primary (.alu .xor) yop xop cond
  | .afXor yop xop cond => encodeCondCompute .feedback (.alu .xor) yop xop cond
  | .arAbsX yop xop cond => encodeCondCompute .primary (.alu .absX) yop xop cond
  | .afAbsX yop xop cond => encodeCondCompute .feedback (.alu .absX) yop xop cond
  | .computeMove z amf yop xop ddreg sdreg => 0x280000 ||| putAt 18 z.bits ||| putCompute amf yop xop ||| putAt 4 ddreg ||| putAt 0 sdreg
  | .loadImm14 dst data => 0x300000 ||| putAt 18 dst.group ||| putAt 4 data ||| putAt 0 dst.index
  | .loadImm16 data dreg => 0x400000 ||| putAt 4 data ||| putAt 0 dreg
  | .pmRead z yop xop dreg i m => encodePm 0x500000 z (.mac .noOp) yop xop dreg i m
  | .pmReadAlu z fn yop xop dreg i m => encodePm 0x500000 z (.alu fn) yop xop dreg i m
  | .pmReadMac8to15 z fn yop xop dreg i m => encodePm 0x500000 z (.mac fn) yop xop dreg i m
  | .pmReadMac4to7 z fn yop xop dreg i m => encodePm 0x500000 z (.mac fn) yop xop dreg i m
  | .pmReadMac2to3 z fn yop xop dreg i m => encodePm 0x500000 z (.mac fn) yop xop dreg i m
  | .pmReadMac1 z yop xop dreg i m => encodePm 0x500000 z (.mac .mulRnd) yop xop dreg i m
  | .pmWrite z yop xop dreg i m => encodePm 0x580000 z (.mac .noOp) yop xop dreg i m
  | .pmWriteAlu z fn yop xop dreg i m => encodePm 0x580000 z (.alu fn) yop xop dreg i m
  | .pmWriteMac8to15 z fn yop xop dreg i m => encodePm 0x580000 z (.mac fn) yop xop dreg i m
  | .pmWriteMac4to7 z fn yop xop dreg i m => encodePm 0x580000 z (.mac fn) yop xop dreg i m
  | .pmWriteMac2to3 z fn yop xop dreg i m => encodePm 0x580000 z (.mac fn) yop xop dreg i m
  | .pmWriteMac1 z yop xop dreg i m => encodePm 0x580000 z (.mac .mulRnd) yop xop dreg i m
  | .dmRead g z yop xop dreg i m => encodeDm 0x600000 g z (.mac .noOp) yop xop dreg i m
  | .dmReadAlu g z fn yop xop dreg i m => encodeDm 0x600000 g z (.alu fn) yop xop dreg i m
  | .dmReadMac8to15 g z fn yop xop dreg i m => encodeDm 0x600000 g z (.mac fn) yop xop dreg i m
  | .dmReadMac4to7 g z fn yop xop dreg i m => encodeDm 0x600000 g z (.mac fn) yop xop dreg i m
  | .dmReadMac2to3 g z fn yop xop dreg i m => encodeDm 0x600000 g z (.mac fn) yop xop dreg i m
  | .dmReadMac1 g z yop xop dreg i m => encodeDm 0x600000 g z (.mac .mulRnd) yop xop dreg i m
  | .dmWrite g z yop xop dreg i m => encodeDm 0x680000 g z (.mac .noOp) yop xop dreg i m
  | .dmWriteAlu g z fn yop xop dreg i m => encodeDm 0x680000 g z (.alu fn) yop xop dreg i m
  | .dmWriteMac8to15 g z fn yop xop dreg i m => encodeDm 0x680000 g z (.mac fn) yop xop dreg i m
  | .dmWriteMac4to7 g z fn yop xop dreg i m => encodeDm 0x680000 g z (.mac fn) yop xop dreg i m
  | .dmWriteMac2to3 g z fn yop xop dreg i m => encodeDm 0x680000 g z (.mac fn) yop xop dreg i m
  | .dmWriteMac1 g z yop xop dreg i m => encodeDm 0x680000 g z (.mac .mulRnd) yop xop dreg i m
  | .loadDirect dst addr => 0x800000 ||| putAt 18 dst.group ||| putAt 4 addr ||| putAt 0 dst.index
  | .storeDirect addr src => 0x900000 ||| putAt 18 src.group ||| putAt 4 addr ||| putAt 0 src.index
  | .storeImm g data i m => 0xA00000 ||| putAt 20 g.bits ||| putAt 4 data ||| putIM i m
  | .dualRead pd dd amf yop xop pmi pmm dmi dmm =>
    0xC00000 ||| putAt 20 pd ||| putAt 18 dd ||| putCompute amf yop xop ||| putAt 6 pmi ||| putAt 4 pmm ||| putAt 2 dmi
      ||| putAt 0 dmm

/-! ### The rows of the opcode table -/

/-- The fixed bits of a row of spec/opcode_table.json: `bits` under `mask`. -/
structure TableRow where
  mask : PWord
  bits : PWord
deriving DecidableEq, Repr

/-- The row of an instruction, as spec/opcode_table.json gives its mask and match (30_encoding.md R102, R111). -/
def Instr.row : Instr → TableRow
  | .nop => ⟨0xFF0000, 0x000000⟩
  | .reserved01 => ⟨0xFF0000, 0x010000⟩
  | .reserved02 => ⟨0xFF0000, 0x020000⟩
  | .reserved03 => ⟨0xFF0000, 0x030000⟩
  | .reserved08 => ⟨0xFF0000, 0x080000⟩
  | .stackControl _ _ _ _ => ⟨0xFF0000, 0x040000⟩
  | .satMr => ⟨0xFF0000, 0x050000⟩
  | .divs _ _ => ⟨0xFF0000, 0x060000⟩
  | .divq _ => ⟨0xFF0000, 0x070000⟩
  | .modify _ _ _ => ⟨0xFF0000, 0x090000⟩
  | .rts _ => ⟨0xFF0010, 0x0A0000⟩
  | .rti _ => ⟨0xFF0010, 0x0A0010⟩
  | .jumpInd _ _ => ⟨0xFF0010, 0x0B0000⟩
  | .callInd _ _ => ⟨0xFF0010, 0x0B0010⟩
  | .modeControl _ _ _ _ _ _ _ => ⟨0xFF0000, 0x0C0000⟩
  | .moveReg _ _ => ⟨0xFF0000, 0x0D0000⟩
  | .lshiftHi _ _ => ⟨0xFF7800, 0x0E0000⟩
  | .orLshiftHi _ _ => ⟨0xFF7800, 0x0E0800⟩
  | .lshiftLo _ _ => ⟨0xFF7800, 0x0E1000⟩
  | .orLshiftLo _ _ => ⟨0xFF7800, 0x0E1800⟩
  | .ashiftHi _ _ => ⟨0xFF7800, 0x0E2000⟩
  | .orAshiftHi _ _ => ⟨0xFF7800, 0x0E2800⟩
  | .ashiftLo _ _ => ⟨0xFF7800, 0x0E3000⟩
  | .orAshiftLo _ _ => ⟨0xFF7800, 0x0E3800⟩
  | .normHi _ _ => ⟨0xFF7800, 0x0E4000⟩
  | .orNormHi _ _ => ⟨0xFF7800, 0x0E4800⟩
  | .normLo _ _ => ⟨0xFF7800, 0x0E5000⟩
  | .orNormLo _ _ => ⟨0xFF7800, 0x0E5800⟩
  | .expHi _ _ => ⟨0xFF7800, 0x0E6000⟩
  | .expHix _ _ => ⟨0xFF7800, 0x0E6800⟩
  | .expLo _ _ => ⟨0xFF7800, 0x0E7000⟩
  | .expAdj _ _ => ⟨0xFF7800, 0x0E7800⟩
  | .lshiftHiImm _ _ => ⟨0xFF7800, 0x0F0000⟩
  | .orLshiftHiImm _ _ => ⟨0xFF7800, 0x0F0800⟩
  | .lshiftLoImm _ _ => ⟨0xFF7800, 0x0F1000⟩
  | .orLshiftLoImm _ _ => ⟨0xFF7800, 0x0F1800⟩
  | .ashiftHiImm _ _ => ⟨0xFF7800, 0x0F2000⟩
  | .orAshiftHiImm _ _ => ⟨0xFF7800, 0x0F2800⟩
  | .ashiftLoImm _ _ => ⟨0xFF7800, 0x0F3000⟩
  | .orAshiftLoImm _ _ => ⟨0xFF7800, 0x0F3800⟩
  | .shiftImmReserved => ⟨0xFF4000, 0x0F4000⟩
  | .shiftMove _ _ _ _ => ⟨0xFF0000, 0x100000⟩
  | .shiftPmRead _ _ _ _ _ => ⟨0xFF8000, 0x110000⟩
  | .shiftPmWrite _ _ _ _ _ => ⟨0xFF8000, 0x118000⟩
  | .shiftDmRead _ _ _ _ _ _ => ⟨0xFE8000, 0x120000⟩
  | .shiftDmWrite _ _ _ _ _ _ => ⟨0xFE8000, 0x128000⟩
  | .doUntil _ _ => ⟨0xFC0000, 0x140000⟩
  | .jump _ _ => ⟨0xFC0000, 0x180000⟩
  | .call _ _ => ⟨0xFC0000, 0x1C0000⟩
  | .condNoCompute _ _ _ _ => ⟨0xFBE000, 0x200000⟩
  | .mrMulRnd _ _ _ => ⟨0xFFE000, 0x202000⟩
  | .mfMulRnd _ _ _ => ⟨0xFFE000, 0x242000⟩
  | .mrAddRnd _ _ _ => ⟨0xFFE000, 0x204000⟩
  | .mfAddRnd _ _ _ => ⟨0xFFE000, 0x244000⟩
  | .mrSubRnd _ _ _ => ⟨0xFFE000, 0x206000⟩
  | .mfSubRnd _ _ _ => ⟨0xFFE000, 0x246000⟩
  | .mrMulSS _ _ _ => ⟨0xFFE000, 0x208000⟩
  | .mfMulSS _ _ _ => ⟨0xFFE000, 0x248000⟩
  | .mrMulSU _ _ _ => ⟨0xFFE000, 0x20A000⟩
  | .mfMulSU _ _ _ => ⟨0xFFE000, 0x24A000⟩
  | .mrMulUS _ _ _ => ⟨0xFFE000, 0x20C000⟩
  | .mfMulUS _ _ _ => ⟨0xFFE000, 0x24C000⟩
  | .mrMulUU _ _ _ => ⟨0xFFE000, 0x20E000⟩
  | .mfMulUU _ _ _ => ⟨0xFFE000, 0x24E000⟩
  | .mrAddSS _ _ _ => ⟨0xFFE000, 0x210000⟩
  | .mfAddSS _ _ _ => ⟨0xFFE000, 0x250000⟩
  | .mrAddSU _ _ _ => ⟨0xFFE000, 0x212000⟩
  | .mfAddSU _ _ _ => ⟨0xFFE000, 0x252000⟩
  | .mrAddUS _ _ _ => ⟨0xFFE000, 0x214000⟩
  | .mfAddUS _ _ _ => ⟨0xFFE000, 0x254000⟩
  | .mrAddUU _ _ _ => ⟨0xFFE000, 0x216000⟩
  | .mfAddUU _ _ _ => ⟨0xFFE000, 0x256000⟩
  | .mrSubSS _ _ _ => ⟨0xFFE000, 0x218000⟩
  | .mfSubSS _ _ _ => ⟨0xFFE000, 0x258000⟩
  | .mrSubSU _ _ _ => ⟨0xFFE000, 0x21A000⟩
  | .mfSubSU _ _ _ => ⟨0xFFE000, 0x25A000⟩
  | .mrSubUS _ _ _ => ⟨0xFFE000, 0x21C000⟩
  | .mfSubUS _ _ _ => ⟨0xFFE000, 0x25C000⟩
  | .mrSubUU _ _ _ => ⟨0xFFE000, 0x21E000⟩
  | .mfSubUU _ _ _ => ⟨0xFFE000, 0x25E000⟩
  | .arPassY _ _ _ => ⟨0xFFE000, 0x220000⟩
  | .afPassY _ _ _ => ⟨0xFFE000, 0x260000⟩
  | .arIncY _ _ _ => ⟨0xFFE000, 0x222000⟩
  | .afIncY _ _ _ => ⟨0xFFE000, 0x262000⟩
  | .arAddC _ _ _ => ⟨0xFFE000, 0x224000⟩
  | .afAddC _ _ _ => ⟨0xFFE000, 0x264000⟩
  | .arAdd _ _ _ => ⟨0xFFE000, 0x226000⟩
  | .afAdd _ _ _ => ⟨0xFFE000, 0x266000⟩
  | .arNotY _ _ _ => ⟨0xFFE000, 0x228000⟩
  | .afNotY _ _ _ => ⟨0xFFE000, 0x268000⟩
  | .arNegY _ _ _ => ⟨0xFFE000, 0x22A000⟩
  | .afNegY _ _ _ => ⟨0xFFE000, 0x26A000⟩
  | .arSubC _ _ _ => ⟨0xFFE000, 0x22C000⟩
  | .afSubC _ _ _ => ⟨0xFFE000, 0x26C000⟩
  | .arSub _ _ _ => ⟨0xFFE000, 0x22E000⟩
  | .afSub _ _ _ => ⟨0xFFE000, 0x26E000⟩
  | .arDecY _ _ _ => ⟨0xFFE000, 0x230000⟩
  | .afDecY _ _ _ => ⟨0xFFE000, 0x270000⟩
  | .arRsub _ _ _ => ⟨0xFFE000, 0x232000⟩
  | .afRsub _ _ _ => ⟨0xFFE000, 0x272000⟩
  | .arRsubC _ _ _ => ⟨0xFFE000, 0x234000⟩
  | .afRsubC _ _ _ => ⟨0xFFE000, 0x274000⟩
  | .arNotX _ _ _ => ⟨0xFFE000, 0x236000⟩
  | .afNotX _ _ _ => ⟨0xFFE000, 0x276000⟩
  | .arAnd _ _ _ => ⟨0xFFE000, 0x238000⟩
  | .afAnd _ _ _ => ⟨0xFFE000, 0x278000⟩
  | .arOr _ _ _ => ⟨0xFFE000, 0x23A000⟩
  | .afOr _ _ _ => ⟨0xFFE000, 0x27A000⟩
  | .arXor _ _ _ => ⟨0xFFE000, 0x23C000⟩
  | .afXor _ _ _ => ⟨0xFFE000, 0x27C000⟩
  | .arAbsX _ _ _ => ⟨0xFFE000, 0x23E000⟩
  | .afAbsX _ _ _ => ⟨0xFFE000, 0x27E000⟩
  | .computeMove _ _ _ _ _ _ => ⟨0xF80000, 0x280000⟩
  | .loadImm14 _ _ => ⟨0xF00000, 0x300000⟩
  | .loadImm16 _ _ => ⟨0xF00000, 0x400000⟩
  | .pmRead _ _ _ _ _ _ => ⟨0xFBE000, 0x500000⟩
  | .pmReadAlu _ _ _ _ _ _ _ => ⟨0xFA0000, 0x520000⟩
  | .pmReadMac8to15 _ _ _ _ _ _ _ => ⟨0xFB0000, 0x510000⟩
  | .pmReadMac4to7 _ _ _ _ _ _ _ => ⟨0xFB8000, 0x508000⟩
  | .pmReadMac2to3 _ _ _ _ _ _ _ => ⟨0xFBC000, 0x504000⟩
  | .pmReadMac1 _ _ _ _ _ _ => ⟨0xFBE000, 0x502000⟩
  | .pmWrite _ _ _ _ _ _ => ⟨0xFBE000, 0x580000⟩
  | .pmWriteAlu _ _ _ _ _ _ _ => ⟨0xFA0000, 0x5A0000⟩
  | .pmWriteMac8to15 _ _ _ _ _ _ _ => ⟨0xFB0000, 0x590000⟩
  | .pmWriteMac4to7 _ _ _ _ _ _ _ => ⟨0xFB8000, 0x588000⟩
  | .pmWriteMac2to3 _ _ _ _ _ _ _ => ⟨0xFBC000, 0x584000⟩
  | .pmWriteMac1 _ _ _ _ _ _ => ⟨0xFBE000, 0x582000⟩
  | .dmRead _ _ _ _ _ _ _ => ⟨0xEBE000, 0x600000⟩
  | .dmReadAlu _ _ _ _ _ _ _ _ => ⟨0xEA0000, 0x620000⟩
  | .dmReadMac8to15 _ _ _ _ _ _ _ _ => ⟨0xEB0000, 0x610000⟩
  | .dmReadMac4to7 _ _ _ _ _ _ _ _ => ⟨0xEB8000, 0x608000⟩
  | .dmReadMac2to3 _ _ _ _ _ _ _ _ => ⟨0xEBC000, 0x604000⟩
  | .dmReadMac1 _ _ _ _ _ _ _ => ⟨0xEBE000, 0x602000⟩
  | .dmWrite _ _ _ _ _ _ _ => ⟨0xEBE000, 0x680000⟩
  | .dmWriteAlu _ _ _ _ _ _ _ _ => ⟨0xEA0000, 0x6A0000⟩
  | .dmWriteMac8to15 _ _ _ _ _ _ _ _ => ⟨0xEB0000, 0x690000⟩
  | .dmWriteMac4to7 _ _ _ _ _ _ _ _ => ⟨0xEB8000, 0x688000⟩
  | .dmWriteMac2to3 _ _ _ _ _ _ _ _ => ⟨0xEBC000, 0x684000⟩
  | .dmWriteMac1 _ _ _ _ _ _ _ => ⟨0xEBE000, 0x682000⟩
  | .loadDirect _ _ => ⟨0xF00000, 0x800000⟩
  | .storeDirect _ _ => ⟨0xF00000, 0x900000⟩
  | .storeImm _ _ _ _ => ⟨0xE00000, 0xA00000⟩
  | .dualRead _ _ _ _ _ _ _ _ _ => ⟨0xC00000, 0xC00000⟩

/-! ### The words as the opcode table numbers them -/

/-- The instruction the decoder reads from an instruction whose bits are `w`, bit 0 the least significant bit of the one
24-bit word (30_encoding.md R100); bits from `nbits` up are zero. An instruction is one word of 24 bits, so a longer word
is none. -/
def decodeTableWord (nbits w : Nat) : Option Instr :=
  if nbits ≤ 24 then some (decode (BitVec.ofNat 24 (w % 2 ^ nbits))) else none

end Sys2Proof
end

