-- ==== Sys2Proof/Config.lean ====
section
/-!
DEFINITION. The implementation parameters of 00_scope.md R9 at the values the spec gives them (log 12).
There is no free value: the spec defines every result of every instruction (93_implementation_defined.md part 1).
-/
namespace Sys2Proof.Config

/-- PC_STACK_DEPTH (R9, D10). -/
abbrev pcStackDepth : Nat := 16

/-- CNTR_STACK_DEPTH (R9, D10). -/
abbrev cntrStackDepth : Nat := 4

/-- STAT_STACK_DEPTH (R9, D10). -/
abbrev statStackDepth : Nat := 4

/-- LOOP_STACK_DEPTH (R9, D10). -/
abbrev loopStackDepth : Nat := 4

/-- NUM_IRQ (R9, D9). -/
abbrev numIrq : Nat := 4

/-- RESET_PC (R9, R58). -/
def resetPc : Addr := 0x0004

/-- SSTAT after reset: four EMPTY bits set, four OVER bits clear (R31, R58). -/
def resetSstat : BitVec 8 := 0x55

/-- CYCLES of every instruction (R9, 70_reset_and_hazards.md R344). -/
def cyclesPerInstr : Nat := 1

/-- The words of each memory: 2^14 (20_memory.md R81, R82). -/
def memWords : Nat := 2 ^ 14

end Sys2Proof.Config
end

