-- ==== Sys2Proof/Machine/State.lean ====
section
/-!
DEFINITION. The state of CORE as plain data: the Machine State of 10_state.md R20 (`Cpu`), and beside it the two memories,
which are the environment's (R3), the host's registration of the acknowledge callback (60_exceptions.md R321), and three
fields of the model's own (log 5).
-/
namespace Sys2Proof.Machine

/-- One bank of the computational registers (10_state.md R21): the 19 registers that exist once per bank. -/
structure Bank where
  ax0 : Word
  ax1 : Word
  ay0 : Word
  ay1 : Word
  ar : Word
  af : Word
  mx0 : Word
  mx1 : Word
  my0 : Word
  my1 : Word
  mf : Word
  mr2 : BitVec 8
  mr1 : Word
  mr0 : Word
  si : Word
  se : BitVec 8
  sb : BitVec 5
  sr1 : Word
  sr0 : Word
deriving DecidableEq, Repr

/-- A hardware stack of fixed capacity `n`: its slots and the number of valid entries, 0 to `n` (10_state.md R40, R41). -/
structure HwStack (α : Type) (n : Nat) where
  slots : Vector α n
  sp : Fin (n + 1)
deriving DecidableEq, Repr

/-- An entry of the status stack: (MSTAT, IMASK, ASTAT) (10_state.md R46). -/
structure StatusEntry where
  mstat : BitVec 5
  imask : BitVec 4
  astat : BitVec 8
deriving DecidableEq, Repr

/-- An entry of the loop stack: the address of the loop's last instruction and its termination code, the 18 bits
`end ∥ term` (10_state.md R47). -/
structure LoopEntry where
  endAddr : Addr
  term : Cond
deriving DecidableEq, Repr

/-- The Machine State of CORE (10_state.md R20 to R58), which is also its snapshot (70_reset_and_hazards.md R351). -/
structure Cpu where
  /-- Bank 0 of the computational registers (R21, R22). -/
  bank0 : Bank
  /-- Bank 1 of the computational registers (R21, R22). -/
  bank1 : Bank
  /-- PX (R23). -/
  px : Byte
  /-- I[0..7] (R24). -/
  i : Vector Addr 8
  /-- M[0..7], signed (R24). -/
  m : Vector Addr 8
  /-- L[0..7] (R24). -/
  l : Vector Addr 8
  /-- BASE[0..7] (R24). -/
  base : Vector Addr 8
  /-- PC (R25). -/
  pc : Addr
  /-- CNTR (R26). -/
  cntr : Addr
  /-- ASTAT: 7 SS, 6 MV, 5 AQ, 4 AS, 3 AC, 2 AV, 1 AN, 0 AZ (R27). -/
  astat : BitVec 8
  /-- MSTAT: 4 M_MODE, 3 AR_SAT, 2 AV_LATCH, 1 BIT_REV, 0 SEC_REG (R29). -/
  mstat : BitVec 5
  /-- SSTAT: OVER at 7, 5, 3, 1 and EMPTY at 6, 4, 2, 0 of the loop, status, counter and PC stack (R31). -/
  sstat : BitVec 8
  /-- IMASK, bit n for line n (R32). -/
  imask : BitVec 4
  /-- ICNTL: 4 NEST, 3:0 SENS (R33). -/
  icntl : BitVec 5
  /-- IRQ_LINE, bit n for line n (R34). -/
  irqLine : BitVec 4
  /-- IRQ_LATCH, bit n for line n (R34). -/
  irqLatch : BitVec 4
  /-- PCSTK and PC_SP (R44). -/
  pcStk : HwStack Addr Config.pcStackDepth
  /-- CNTRSTK and CNTR_SP (R45). -/
  cntrStk : HwStack Addr Config.cntrStackDepth
  /-- STATSTK and STAT_SP (R46). -/
  statStk : HwStack StatusEntry Config.statStackDepth
  /-- LOOPSTK and LOOP_SP (R47). -/
  loopStk : HwStack LoopEntry Config.loopStackDepth
deriving DecidableEq, Repr

/-- One access of CORE to a memory, that is one hook call (00_scope.md R5; 20_memory.md R88). -/
inductive Access where
  | fetch (a : Addr)
  | dmRead (a : Addr)
  | dmWrite (a : Addr) (v : Word)
  | pmRead (a : Addr)
  | pmWrite (a : Addr) (v : PWord)
deriving DecidableEq, Repr

/-- A memory: the bytes that differ from zero, by rising key. The bytes of a word stand at consecutive keys
(`dmKey`, `pmKey` of Machine/Memory.lean; log 3). -/
abbrev Memory := List Host.Cell

/-- The whole state a step acts on. -/
structure State where
  /-- The Machine State (R20). -/
  cpu : Cpu
  /-- Data memory, the environment's (20_memory.md R82; log 4). -/
  dm : Memory
  /-- Program memory, the environment's (20_memory.md R81; log 4). -/
  pm : Memory
  /-- The host has an acknowledge callback registered (60_exceptions.md R321). It is no part of the Machine State
  (70_reset_and_hazards.md R351); the function itself is the host's and CORE uses nothing of it but the call (log 10). -/
  irqCallback : Bool
  /-- The model's own: the accesses of the latest step, in order (R88, R93; log 5). -/
  bus : List Access
  /-- The model's own: the calls `fn(n)` of the registered callback in the latest step or host call, in order (R321;
  log 5). -/
  acks : List (Fin Config.numIrq)
  /-- The model's own: the instruction wrote IMASK or ICNTL or performed StatPop, so the step ends in an interrupt
  evaluation (47_program_flow.md R280; log 5). -/
  evalReq : Bool
deriving DecidableEq, Repr

/-- CORE has no fault: "a model's step function is total and has no error result" (60_exceptions.md R310; log 11). No
definition raises one, which is safe. -/
inductive Fault where
deriving DecidableEq, Repr

/-- Why the model declines. -/
inductive Refusal where
  /-- Raised by `exec` for an instruction without a meaning yet; every instruction has its meaning, so by none. Safe. -/
  | notModelled (mnemonic : String)
  /-- Raised by `setState` for a snapshot that breaks an invariant of 10_state.md (70_reset_and_hazards.md R351,
  93_implementation_defined.md U15: "refuse"); never by a step. Safe. -/
  | snapshotBreaksInvariant
deriving DecidableEq, Repr

/-- A bank of zeros: the values the model names for the registers R58 leaves unspecified. DESIGN CHOICE, unsafe (log 1). -/
def Bank.zero : Bank :=
  { ax0 := 0, ax1 := 0, ay0 := 0, ay1 := 0, ar := 0, af := 0, mx0 := 0, mx1 := 0, my0 := 0, my1 := 0, mf := 0,
    mr2 := 0, mr1 := 0, mr0 := 0, si := 0, se := 0, sb := 0, sr1 := 0, sr0 := 0 }

/-- An empty stack whose slots hold `v`, the value the model names for slots R58 leaves unspecified (log 1). -/
def HwStack.emptyOf {α : Type} {n : Nat} (v : α) : HwStack α n := { slots := Vector.replicate n v, sp := 0 }

/-- The Machine State after reset: the values of 10_state.md R58, and zero where R58 says "unspecified" (log 1). BASE is
`I[k] & LMASK(L[k])` of those zeros. No line is asserted (log 7). -/
def Cpu.reset : Cpu :=
  { bank0 := Bank.zero, bank1 := Bank.zero, px := 0,
    i := Vector.replicate 8 0, m := Vector.replicate 8 0, l := Vector.replicate 8 0, base := Vector.replicate 8 0,
    pc := Config.resetPc, cntr := 0, astat := 0x00, mstat := 0, sstat := Config.resetSstat, imask := 0, icntl := 0,
    irqLine := 0, irqLatch := 0,
    pcStk := HwStack.emptyOf 0, cntrStk := HwStack.emptyOf 0, statStk := HwStack.emptyOf ⟨0, 0, 0⟩,
    loopStk := HwStack.emptyOf ⟨0, .eq⟩ }

/-- The machine right after reset, with both memories as nothing has written them and no callback registered
(log 2, log 6, log 10). -/
def State.reset : State :=
  { cpu := Cpu.reset, dm := [], pm := [], irqCallback := false, bus := [], acks := [], evalReq := false }

end Sys2Proof.Machine
end

