-- ==== Sys2Proof/Machine/Bits.lean ====
section
/-!
DEFINITION. Bit helpers of the notation of 00_scope.md R10: writing one bit, reversing an address, the mask of a length.
-/
namespace Sys2Proof.Machine

/-- `v` with `v[i] <- b` and every other bit as it was (00_scope.md R10, R11). -/
def setBit {w : Nat} (v : BitVec w) (i : Nat) (b : Bool) : BitVec w :=
  if b then v ||| BitVec.twoPow w i else v &&& ~~~BitVec.twoPow w i

/-- The 14-bit value `r` with `r[j] = v[13 - j]` (41_dag_memory.md R141). -/
def rev14 (v : Addr) : Addr := v.reverse

/-- The smallest `n` at most `fuel` with `2^n >= len`, counted up from `n`. -/
def coverFrom (len : Nat) : Nat → Nat → Nat
  | 0, n => n
  | fuel + 1, n => if len ≤ 2 ^ n then n else coverFrom len fuel (n + 1)

/-- LMASK(len): with `n` the smallest integer such that `2^n >= len`, the mask `0x3FFF & ~(2^n - 1)`
(10_state.md R24). -/
def lmask (len : Addr) : Addr := ~~~BitVec.ofNat 14 (2 ^ coverFrom len.toNat 14 0 - 1)

/-- How many of the bits `x[n-1], x[n-2], ..., x[0]`, taken in that order, equal `b` before the first that differs
(45_shifter.md R244, R246). -/
def countEqual (x : Word) (b : Bool) : Nat → Nat
  | 0 => 0
  | n + 1 => if x.getLsbD n = b then 1 + countEqual x b n else 0

end Sys2Proof.Machine
end

