-- ==== Sys2Proof/Machine/Memory.lean ====
section
/-!
DEFINITION. The two memories behind CORE's hooks as plain memories (20_memory.md R80 to R94; log 2, log 3, log 4). A
memory is a list of Host cells in one canonical form: keys strictly rising, no cell equal to what an unlisted key reads
as, which is zero. A word occupies consecutive keys; CORE never sees the keys (R85).
-/
namespace Sys2Proof.Machine

/-- What a key nothing has written reads as. DESIGN CHOICE, unsafe (log 2). -/
def unlistedByte : Byte := 0

/-- The byte at a key. -/
def Memory.readByte : Memory → Nat → Byte
  | [], _ => unlistedByte
  | (b, w) :: rest, a => if a = b then w else Memory.readByte rest a

/-- A memory without the cells of one key. -/
def Memory.eraseKey : Memory → Nat → Memory
  | [], _ => []
  | (b, w) :: rest, a => if a = b then Memory.eraseKey rest a else (b, w) :: Memory.eraseKey rest a

/-- A cell put in before the first cell of a greater key. -/
def Memory.insertCell (a : Nat) (v : Byte) : Memory → Memory
  | [] => [(a, v)]
  | (b, w) :: rest => if a < b then (a, v) :: (b, w) :: rest else (b, w) :: Memory.insertCell a v rest

/-- Writing one byte keeps the canonical form: a byte equal to the unlisted one leaves no cell. -/
def Memory.writeByte (mem : Memory) (a : Nat) (v : Byte) : Memory :=
  if v = unlistedByte then mem.eraseKey a else Memory.insertCell a v (mem.eraseKey a)

/-- Keys at least `lo`, strictly rising and below `size`, no cell equal to the unlisted byte. -/
def Memory.wfFrom (size lo : Nat) : Memory → Bool
  | [] => true
  | (a, v) :: rest => decide (lo ≤ a) && decide (a < size) && (v != unlistedByte) && Memory.wfFrom size (a + 1) rest

/-- The canonical form of a memory of `size` bytes. -/
def Memory.wf (size : Nat) (mem : Memory) : Bool := Memory.wfFrom size 0 mem

/-- The key of the high byte of data word `a`; its low byte follows (log 3). -/
def dmKey (a : Addr) : Nat := 2 * a.toNat

/-- The key of the high payload byte of program word `a`; the low payload byte and the tag follow (log 3). -/
def pmKey (a : Addr) : Nat := 3 * a.toNat

/-- The size of data memory in bytes (20_memory.md R82). -/
def dmBytes : Nat := 2 * Config.memWords

/-- The size of program memory in bytes (20_memory.md R81). -/
def pmBytes : Nat := 3 * Config.memWords

/-- The 16-bit word at DM:a (20_memory.md R82). -/
def Memory.dmWord (mem : Memory) (a : Addr) : Word := mem.readByte (dmKey a) ++ mem.readByte (dmKey a + 1)

/-- Data memory with the word at DM:a replaced (20_memory.md R82, R84). -/
def Memory.setDmWord (mem : Memory) (a : Addr) (v : Word) : Memory :=
  (mem.writeByte (dmKey a) (v.extractLsb' 8 8)).writeByte (dmKey a + 1) (v.extractLsb' 0 8)

/-- The 24-bit word `payload ∥ tag` at PM:a (20_memory.md R81). -/
def Memory.pmWord (mem : Memory) (a : Addr) : PWord :=
  mem.readByte (pmKey a) ++ mem.readByte (pmKey a + 1) ++ mem.readByte (pmKey a + 2)

/-- Program memory with the word at PM:a replaced (20_memory.md R81, R84). -/
def Memory.setPmWord (mem : Memory) (a : Addr) (v : PWord) : Memory :=
  ((mem.writeByte (pmKey a) (v.extractLsb' 16 8)).writeByte (pmKey a + 1) (v.extractLsb' 8 8)).writeByte (pmKey a + 2)
    (v.extractLsb' 0 8)

/-- `MemRead(DM:a, 16)`: one access, on the bus (00_scope.md R12; 20_memory.md R88). -/
def dmRead (a : Addr) (s : State) : Word × State :=
  (s.dm.dmWord a, { s with bus := s.bus ++ [.dmRead a] })

/-- `MemWrite(DM:a, 16, v)`: one access, on the bus (00_scope.md R12; 20_memory.md R88). -/
def dmWrite (a : Addr) (v : Word) (s : State) : State :=
  { s with dm := s.dm.setDmWord a v, bus := s.bus ++ [.dmWrite a v] }

/-- `MemRead(PM:a, 24)` as data: one access, on the bus (00_scope.md R12; 20_memory.md R88). -/
def pmRead (a : Addr) (s : State) : PWord × State :=
  (s.pm.pmWord a, { s with bus := s.bus ++ [.pmRead a] })

/-- `MemWrite(PM:a, 24, v)`: one access, on the bus (00_scope.md R12; 20_memory.md R88). -/
def pmWrite (a : Addr) (v : PWord) (s : State) : State :=
  { s with pm := s.pm.setPmWord a v, bus := s.bus ++ [.pmWrite a v] }

end Sys2Proof.Machine
end

