-- ==== Sys2Proof/Machine/Operands.lean ====
section
/-!
DEFINITION. Operand selection: the live bank, the register map of 10_state.md R35 with reading and writing through it
(R36 to R39), and the operand tables of the three units (43_alu.md R170, 44_mac.md R200, 45_shifter.md R230). The tables are
data, as the spec asks (93_implementation_defined.md U3).
-/
namespace Sys2Proof.Machine

/-! ### The live bank -/

/-- The live bank: bank `MSTAT.SEC_REG` (10_state.md R22). -/
def Cpu.live (c : Cpu) : Bank := if c.mstat.getLsbD 0 then c.bank1 else c.bank0

/-- The live bank replaced; the other copy keeps its contents (10_state.md R22). -/
def Cpu.setLive (c : Cpu) (b : Bank) : Cpu := if c.mstat.getLsbD 0 then { c with bank1 := b } else { c with bank0 := b }

/-- `SetMstat(v)`: the live bank and the flag clear mask are functions of MSTAT, so nothing else changes (10_state.md R30). -/
def Cpu.setMstat (v : BitVec 5) (c : Cpu) : Cpu := { c with mstat := v }

/-- MR as one 40-bit pattern, `MR2 ∥ MR1 ∥ MR0` (10_state.md R21). -/
def Bank.mr (b : Bank) : BitVec 40 := b.mr2 ++ b.mr1 ++ b.mr0

/-- SR as one 32-bit pattern, `SR1 ∥ SR0` (10_state.md R21). -/
def Bank.sr (b : Bank) : BitVec 32 := b.sr1 ++ b.sr0

/-! ### The register map -/

/-- The registers that have a slot of the (group, index) scheme (10_state.md R35). -/
inductive Reg where
  | ax0 | ax1 | mx0 | mx1 | ay0 | ay1 | my0 | my1 | si | se | ar | mr0 | mr1 | mr2 | sr0 | sr1
  | i (k : Fin 8)
  | m (k : Fin 8)
  | l (k : Fin 8)
  | astat | mstat | sstat | imask | icntl | cntr | sb | px
deriving DecidableEq, Repr

/-- Group 0, the set a DREG field names (10_state.md R35). -/
def group0 : List Reg :=
  [.ax0, .ax1, .mx0, .mx1, .ay0, .ay1, .my0, .my1, .si, .se, .ar, .mr0, .mr1, .mr2, .sr0, .sr1]

/-- Group 1: DAG1 (10_state.md R35). -/
def group1 : List Reg := [.i 0, .i 1, .i 2, .i 3, .m 0, .m 1, .m 2, .m 3, .l 0, .l 1, .l 2, .l 3]

/-- Group 2: DAG2 (10_state.md R35). -/
def group2 : List Reg := [.i 4, .i 5, .i 6, .i 7, .m 4, .m 5, .m 6, .m 7, .l 4, .l 5, .l 6, .l 7]

/-- Group 3: status and control (10_state.md R35). -/
def group3 : List Reg := [.astat, .mstat, .sstat, .imask, .icntl, .cntr, .sb, .px]

/-- The registers of a group, from index 0 on. -/
def regGroup (g : BitVec 2) : List Reg :=
  match g.toNat with
  | 0 => group0
  | 1 => group1
  | 2 => group2
  | _ => group3

/-- The register of a slot; none for the 16 invalid slots, those past the end of their group (10_state.md R35, R39). -/
def regAt (slot : Slot) : Option Reg := (regGroup slot.group)[slot.index.toNat]?

/-- A register widened to 16 bits: by sign for MR2, SE, SB and M, by zero for the rest (10_state.md R36). -/
def readReg (r : Reg) (c : Cpu) : Word :=
  match r with
  | .ax0 => c.live.ax0
  | .ax1 => c.live.ax1
  | .mx0 => c.live.mx0
  | .mx1 => c.live.mx1
  | .ay0 => c.live.ay0
  | .ay1 => c.live.ay1
  | .my0 => c.live.my0
  | .my1 => c.live.my1
  | .si => c.live.si
  | .se => c.live.se.signExtend 16
  | .ar => c.live.ar
  | .mr0 => c.live.mr0
  | .mr1 => c.live.mr1
  | .mr2 => c.live.mr2.signExtend 16
  | .sr0 => c.live.sr0
  | .sr1 => c.live.sr1
  | .i k => c.i[k].setWidth 16
  | .m k => c.m[k].signExtend 16
  | .l k => c.l[k].setWidth 16
  | .astat => c.astat.setWidth 16
  | .mstat => c.mstat.setWidth 16
  | .sstat => c.sstat.setWidth 16
  | .imask => c.imask.setWidth 16
  | .icntl => c.icntl.setWidth 16
  | .cntr => c.cntr.setWidth 16
  | .sb => c.live.sb.signExtend 16
  | .px => c.px.setWidth 16

/-- `RegRead(g, i)`: an invalid slot reads 0x0000 (10_state.md R36, R39). -/
def regRead (slot : Slot) (c : Cpu) : Word :=
  match regAt slot with
  | some r => readReg r c
  | none => 0

/-- The slot that a 4-bit DREG field names (30_encoding.md R107). -/
def dregSlot (dreg : BitVec 4) : Slot := ⟨0, dreg⟩

/-- BASE[k] recomputed from I[k] and L[k] (10_state.md R24). -/
def Cpu.rebase (k : Fin 8) (c : Cpu) : Cpu := { c with base := c.base.set k (c.i[k] &&& lmask c.l[k]) }

/-- The OVER bits of SSTAT take the bits of `v`, the EMPTY bits stay (10_state.md R31). -/
def sstatWrite (v : Word) (sstat : BitVec 8) : BitVec 8 := (v.setWidth 8 &&& 0xAA) ||| (sstat &&& 0x55)

/-! ### The operand tables -/

/-- What an operand table can name: a register of the live bank or the constant 0. -/
inductive Source where
  | ax0 | ax1 | ay0 | ay1 | ar | af | mx0 | mx1 | my0 | my1 | mf | mr0 | mr1 | mr2 | si | sr0 | sr1 | zero
deriving DecidableEq, Repr

/-- The 16-bit pattern of a source; MR2 is sign-extended (43_alu.md R170, 44_mac.md R200, 45_shifter.md R230). -/
def Source.read : Source → Bank → Word
  | .ax0, b => b.ax0
  | .ax1, b => b.ax1
  | .ay0, b => b.ay0
  | .ay1, b => b.ay1
  | .ar, b => b.ar
  | .af, b => b.af
  | .mx0, b => b.mx0
  | .mx1, b => b.mx1
  | .my0, b => b.my0
  | .my1, b => b.my1
  | .mf, b => b.mf
  | .mr0, b => b.mr0
  | .mr1, b => b.mr1
  | .mr2, b => b.mr2.signExtend 16
  | .si, b => b.si
  | .sr0, b => b.sr0
  | .sr1, b => b.sr1
  | .zero, _ => 0

/-- The ALU's X table (43_alu.md R170). -/
def aluXTable : Vector Source 8 := #v[.ax0, .ax1, .ar, .mr0, .mr1, .mr2, .sr0, .sr1]

/-- The ALU's Y table (43_alu.md R170). -/
def aluYTable : Vector Source 4 := #v[.ay0, .ay1, .af, .zero]

/-- The MAC's X table (44_mac.md R200). -/
def macXTable : Vector Source 8 := #v[.mx0, .mx1, .ar, .mr0, .mr1, .mr2, .sr0, .sr1]

/-- The MAC's Y table (44_mac.md R200). -/
def macYTable : Vector Source 4 := #v[.my0, .my1, .mf, .zero]

/-- The shifter's X table; code 7 is reserved and reads 0 (45_shifter.md R230; 93_implementation_defined.md U3). -/
def shXTable : Vector Source 8 := #v[.si, .sr1, .sr0, .ar, .mr0, .mr1, .mr2, .zero]

/-- `AluX(XOP)`, read from the live bank (43_alu.md R170). -/
def aluX (xop : BitVec 3) (c : Cpu) : Word := (aluXTable[xop.toNat]).read c.live

/-- `AluY(YOP)` (43_alu.md R170). -/
def aluY (yop : BitVec 2) (c : Cpu) : Word := (aluYTable[yop.toNat]).read c.live

/-- `MacX(XOP)` (44_mac.md R200). -/
def macX (xop : BitVec 3) (c : Cpu) : Word := (macXTable[xop.toNat]).read c.live

/-- `MacY(YOP)` (44_mac.md R200). -/
def macY (yop : BitVec 2) (c : Cpu) : Word := (macYTable[yop.toNat]).read c.live

/-- `ShX(XOP)` (45_shifter.md R230). -/
def shX (xop : BitVec 3) (c : Cpu) : Word := (shXTable[xop.toNat]).read c.live

/-! ### Slots of the address generators -/

/-- The number of slot or modifier `n` of a generator: `4*G + n` (30_encoding.md R108). -/
def dagSlot : Gen → BitVec 2 → Fin 8
  | .dag1, n => ⟨n.toNat, by omega⟩
  | .dag2, n => ⟨4 + n.toNat, by omega⟩

end Sys2Proof.Machine
end

