-- ==== Sys2Proof/Machine/Flags.lean ====
section
/-!
DEFINITION. Every flag computation of the spec: the places of the flags (10_state.md R27, R29), the ALU formulas
(43_alu.md R171), the MAC overflow rule (44_mac.md R203) and the flag conditions (47_program_flow.md R281).
-/
namespace Sys2Proof.Machine

/-! ### The places of the flags in ASTAT (10_state.md R27) -/

/-- AZ is bit 0. -/
abbrev bitAZ : Nat := 0
/-- AN is bit 1. -/
abbrev bitAN : Nat := 1
/-- AV is bit 2. -/
abbrev bitAV : Nat := 2
/-- AC is bit 3. -/
abbrev bitAC : Nat := 3
/-- AS is bit 4. -/
abbrev bitAS : Nat := 4
/-- AQ is bit 5. -/
abbrev bitAQ : Nat := 5
/-- MV is bit 6. -/
abbrev bitMV : Nat := 6
/-- SS is bit 7. -/
abbrev bitSS : Nat := 7

/-- A flag of ASTAT. -/
def Cpu.flag (c : Cpu) (i : Nat) : Bool := c.astat.getLsbD i

/-- `ASTAT[i] <- b`. -/
def Cpu.setFlag (i : Nat) (b : Bool) (c : Cpu) : Cpu := { c with astat := setBit c.astat i b }

/-! ### The mode bits of MSTAT (10_state.md R29) -/

/-- BIT_REV, bit 1: DAG1 data addresses are bit-reversed. -/
def Cpu.bitRev (c : Cpu) : Bool := c.mstat.getLsbD 1
/-- AV_LATCH, bit 2: AV is sticky. -/
def Cpu.avLatch (c : Cpu) : Bool := c.mstat.getLsbD 2
/-- AR_SAT, bit 3: AR saturates on overflow. -/
def Cpu.arSat (c : Cpu) : Bool := c.mstat.getLsbD 3
/-- M_MODE, bit 4: the MAC product is not shifted. -/
def Cpu.mMode (c : Cpu) : Bool := c.mstat.getLsbD 4

/-! ### The ALU (43_alu.md R171) -/

/-- What an ALU function produces: the 16-bit result before saturation and the four flags of this operation. -/
structure AluOut where
  res : Word
  z : Bool
  n : Bool
  v : Bool
  c : Bool
deriving DecidableEq, Repr

/-- `AluAdd(a, b, cin)`: the sum in 17 bits; C is its bit 16, V = a15 ^ b15 ^ r15 ^ r16 (43_alu.md R171). -/
def aluAdd (a b : Word) (cin : Bool) : AluOut :=
  let r : BitVec 17 := a.setWidth 17 + b.setWidth 17 + (BitVec.ofBool cin).setWidth 17
  let res : Word := r.setWidth 16
  { res := res, z := res == 0, n := r.getLsbD 15,
    v := a.getLsbD 15 ^^ b.getLsbD 15 ^^ r.getLsbD 15 ^^ r.getLsbD 16, c := r.getLsbD 16 }

/-- `AluSub(a, b, cin)`: `a - b + cin - 1` in 17 bits; C is the inverse of bit 16, no borrow (43_alu.md R171). -/
def aluSub (a b : Word) (cin : Bool) : AluOut :=
  let r : BitVec 17 := a.setWidth 17 - b.setWidth 17 + (BitVec.ofBool cin).setWidth 17 - 1
  let res : Word := r.setWidth 16
  { res := res, z := res == 0, n := r.getLsbD 15,
    v := a.getLsbD 15 ^^ b.getLsbD 15 ^^ r.getLsbD 15 ^^ r.getLsbD 16, c := !r.getLsbD 16 }

/-- `AluLogic(res)` (43_alu.md R171). -/
def aluLogic (res : Word) : AluOut := { res := res, z := res == 0, n := res.getLsbD 15, v := false, c := false }

/-- ABS X: n and v tell the operand 0x8000, which has no positive counterpart (43_alu.md R188). -/
def aluAbs (x : Word) : AluOut :=
  { res := if x.getLsbD 15 then -x else x, z := x == 0, n := x == 0x8000, v := x == 0x8000, c := false }

/-- The sixteen ALU functions on their operands and the carry before the instruction (43_alu.md R173 to R188). -/
def aluCompute (fn : AluFn) (x y : Word) (carry : Bool) : AluOut :=
  match fn with
  | .passY => aluLogic y
  | .incY => aluAdd y 0x0001 false
  | .addC => aluAdd x y carry
  | .add => aluAdd x y false
  | .notY => aluLogic (y ^^^ 0xFFFF)
  | .negY => aluSub 0x0000 y true
  | .subC => aluSub x y carry
  | .sub => aluSub x y true
  | .decY => aluSub y 0x0001 true
  | .rsub => aluSub y x true
  | .rsubC => aluSub y x carry
  | .notX => aluLogic (x ^^^ 0xFFFF)
  | .and => aluLogic (x &&& y)
  | .or => aluLogic (x ||| y)
  | .xor => aluLogic (x ^^^ y)
  | .absX => aluAbs x

/-- `SetAluFlags(z, n, v, c)`: AZ, AN, AC are replaced; AV is replaced, or only set while AV_LATCH is 1
(43_alu.md R171; 10_state.md R28). -/
def Cpu.setAluFlags (o : AluOut) (c : Cpu) : Cpu :=
  let v := if c.avLatch then c.flag bitAV || o.v else o.v
  (((c.setFlag bitAV v).setFlag bitAZ o.z).setFlag bitAN o.n).setFlag bitAC o.c

/-! ### The MAC (44_mac.md R203) -/

/-- MV: the top nine bits of the 40-bit result are neither all 0 nor all 1 (44_mac.md R203). -/
def macOverflow (q : BitVec 40) : Bool :=
  !(q.extractLsb' 31 9 == 0 || q.extractLsb' 31 9 == BitVec.allOnes 9)

/-! ### The flag conditions (47_program_flow.md R281) -/

/-- `Cond(c)` for the codes that test ASTAT. Code 14 is the counter condition, which tests no flag (R282): it is decided
in `evalCond` of Machine/Ops.lean and its value here is used by nothing. -/
def flagCond (cond : Cond) (astat : BitVec 8) : Bool :=
  let az := astat.getLsbD bitAZ
  let an := astat.getLsbD bitAN
  let av := astat.getLsbD bitAV
  let ac := astat.getLsbD bitAC
  let as := astat.getLsbD bitAS
  let mv := astat.getLsbD bitMV
  match cond with
  | .eq => az
  | .ne => !az
  | .gt => !((an ^^ av) || az)
  | .le => (an ^^ av) || az
  | .lt => an ^^ av
  | .ge => !(an ^^ av)
  | .av => av
  | .notAv => !av
  | .ac => ac
  | .notAc => !ac
  | .neg => as
  | .pos => !as
  | .mv => mv
  | .notMv => !mv
  | .notCe => true
  | .always => true

end Sys2Proof.Machine
end

