-- ==== Sys2Proof/Machine/Ops.lean ====
section
/-!
DEFINITION. The shared operations every meaning is written over: the four hardware stacks (10_state.md R40 to R48), register
writes with their side effects (R37, R38), the conditions with the counter condition (47_program_flow.md R281, R282), the
address generators (41_dag_memory.md R140 to R146), and taking an interrupt and returning from one (60_exceptions.md R312
to R318; 47_program_flow.md R290).
-/
namespace Sys2Proof.Machine

/-- The outcome type of a step and of every meaning. -/
abbrev Result := Host.Outcome State Fault Refusal

/-- An operation on the Machine State alone, memories and the model's own fields untouched. -/
def onCpu (f : Cpu → Cpu) (s : State) : State := { s with cpu := f s.cpu }

/-- The live bank passed through a function (10_state.md R22). -/
def Cpu.withLive (f : Bank → Bank) (c : Cpu) : Cpu := c.setLive (f c.live)

/-! ### The hardware stacks -/

section Stack
variable {α : Type} {n : Nat}

/-- A push: none when the stack is full, and then nothing is written (10_state.md R42). -/
def HwStack.push (v : α) (st : HwStack α n) : Option (HwStack α n) :=
  if h : st.sp.val < n then some { slots := st.slots.set st.sp.val v h, sp := ⟨st.sp.val + 1, by omega⟩ } else none

/-- The top entry; slot 0 of an empty stack (10_state.md R43, R44 `PcTop`). -/
def HwStack.top [NeZero n] (st : HwStack α n) : α :=
  st.slots[st.sp.val - 1]'(by have := st.sp.isLt; have := NeZero.pos n; omega)

/-- A pop: the pointer goes down by one and never below 0; no slot changes (10_state.md R41, R43, R44). -/
def HwStack.pop (st : HwStack α n) : HwStack α n :=
  { st with sp := ⟨st.sp.val - 1, by have := st.sp.isLt; omega⟩ }

/-- No valid entry. -/
def HwStack.isEmpty (st : HwStack α n) : Bool := st.sp.val == 0

end Stack

/-- SSTAT after a push: the EMPTY bit at `empty` is cleared if it succeeded, else the OVER bit above it is set
(10_state.md R42, R44 to R48). -/
def sstatPush (empty : Nat) (done : Bool) (sstat : BitVec 8) : BitVec 8 :=
  if done then setBit sstat empty false else setBit sstat (empty + 1) true

/-- SSTAT after a pop of a stack with `sp` entries: the EMPTY bit is set when the pop brings the depth to 0; a pop at
depth 0 changes nothing (10_state.md R43, R44 to R48). -/
def sstatPop (empty : Nat) (sp : Nat) (sstat : BitVec 8) : BitVec 8 :=
  if sp == 1 then setBit sstat empty true else sstat

/-- `PcPush(v)` (10_state.md R44). -/
def Cpu.pcPush (v : Addr) (c : Cpu) : Cpu :=
  let r := c.pcStk.push v
  { c with pcStk := r.getD c.pcStk, sstat := sstatPush 0 r.isSome c.sstat }

/-- `PcPop()`, what it does to the state; the value it delivers is `PcTop()` of the state before (10_state.md R44). -/
def Cpu.pcPop (c : Cpu) : Cpu := { c with pcStk := c.pcStk.pop, sstat := sstatPop 0 c.pcStk.sp c.sstat }

/-- `PcTop()`, which is also the value `PcPop()` delivers (10_state.md R43, R44). -/
def Cpu.pcTop (c : Cpu) : Addr := c.pcStk.top

/-- `CntrPush()`: the counter stack saves CNTR (10_state.md R45). -/
def Cpu.cntrPush (c : Cpu) : Cpu :=
  let r := c.cntrStk.push c.cntr
  { c with cntrStk := r.getD c.cntrStk, sstat := sstatPush 2 r.isSome c.sstat }

/-- `CntrPop()`: CNTR takes the popped value (10_state.md R45). -/
def Cpu.cntrPop (c : Cpu) : Cpu :=
  { c with cntrStk := c.cntrStk.pop, sstat := sstatPop 2 c.cntrStk.sp c.sstat, cntr := c.cntrStk.top }

/-- `StatPush()` (10_state.md R46). -/
def Cpu.statPush (c : Cpu) : Cpu :=
  let r := c.statStk.push ⟨c.mstat, c.imask, c.astat⟩
  { c with statStk := r.getD c.statStk, sstat := sstatPush 4 r.isSome c.sstat }

/-- `StatPop()` on the Machine State: MSTAT, IMASK and ASTAT take the popped triple (10_state.md R46). -/
def Cpu.statPop (c : Cpu) : Cpu :=
  let e := c.statStk.top
  let c := { c with statStk := c.statStk.pop, sstat := sstatPop 4 c.statStk.sp c.sstat }
  { c.setMstat e.mstat with imask := e.imask, astat := e.astat }

/-- `LoopPush(e)` (10_state.md R47). -/
def Cpu.loopPush (e : LoopEntry) (c : Cpu) : Cpu :=
  let r := c.loopStk.push e
  { c with loopStk := r.getD c.loopStk, sstat := sstatPush 6 r.isSome c.sstat }

/-- `LoopPop()`; nothing at depth 0 (10_state.md R47). -/
def Cpu.loopPop (c : Cpu) : Cpu := { c with loopStk := c.loopStk.pop, sstat := sstatPop 6 c.loopStk.sp c.sstat }

/-- `(LoopEnd, LoopTerm)` of the open loop; none when the loop stack is empty (10_state.md R47). -/
def Cpu.openLoop (c : Cpu) : Option LoopEntry := if c.loopStk.isEmpty then none else some c.loopStk.top

/-- `StatPop()`, which is an evaluation point (10_state.md R46; 60_exceptions.md R316). -/
def statPop (s : State) : State := { s with cpu := s.cpu.statPop, evalReq := true }

/-! ### Register writes -/

/-- The write of one register with its side effects; the evaluation that a write of IMASK or ICNTL asks for is
`regWrite`'s (10_state.md R38). -/
def writeReg (r : Reg) (v : Word) (c : Cpu) : Cpu :=
  match r with
  | .ax0 => c.withLive fun b => { b with ax0 := v }
  | .ax1 => c.withLive fun b => { b with ax1 := v }
  | .mx0 => c.withLive fun b => { b with mx0 := v }
  | .mx1 => c.withLive fun b => { b with mx1 := v }
  | .ay0 => c.withLive fun b => { b with ay0 := v }
  | .ay1 => c.withLive fun b => { b with ay1 := v }
  | .my0 => c.withLive fun b => { b with my0 := v }
  | .my1 => c.withLive fun b => { b with my1 := v }
  | .si => c.withLive fun b => { b with si := v }
  | .se => c.withLive fun b => { b with se := v.setWidth 8 }
  | .ar => c.withLive fun b => { b with ar := v }
  | .mr0 => c.withLive fun b => { b with mr0 := v }
  | .mr1 => c.withLive fun b => { b with mr1 := v, mr2 := if v.getLsbD 15 then 0xFF else 0x00 }
  | .mr2 => c.withLive fun b => { b with mr2 := v.setWidth 8 }
  | .sr0 => c.withLive fun b => { b with sr0 := v }
  | .sr1 => c.withLive fun b => { b with sr1 := v }
  | .i k => Cpu.rebase k { c with i := c.i.set k (v.setWidth 14) }
  | .m k => { c with m := c.m.set k (v.setWidth 14) }
  | .l k => Cpu.rebase k { c with l := c.l.set k (v.setWidth 14) }
  | .astat => { c with astat := v.setWidth 8 }
  | .mstat => c.setMstat (v.setWidth 5)
  | .sstat => { c with sstat := sstatWrite v c.sstat }
  | .imask => { c with imask := v.setWidth 4 }
  | .icntl => { c with icntl := v.setWidth 5 }
  | .cntr => { c.cntrPush with cntr := v.setWidth 14 }
  | .sb => c.withLive fun b => { b with sb := v.setWidth 5 }
  | .px => { c with px := v.setWidth 8 }

/-- A write of this register is an evaluation point (10_state.md R32, R33; 60_exceptions.md R316). -/
def Reg.isInterruptControl (r : Reg) : Bool := r == .imask || r == .icntl

/-- `RegWrite(g, i, v)`: an invalid slot changes nothing (10_state.md R37 to R39). -/
def regWrite (slot : Slot) (v : Word) (s : State) : State :=
  match regAt slot with
  | some r => { s with cpu := writeReg r v s.cpu, evalReq := s.evalReq || r.isInterruptControl }
  | none => s

/-! ### Conditions -/

/-- `Cond(14)`, the counter condition: CNTR is decremented in 14 bits; at zero the counter stack is popped and the
condition is false (47_program_flow.md R282). -/
def counterCond (c : Cpu) : Bool × Cpu :=
  let c := { c with cntr := c.cntr - 1 }
  if c.cntr ≠ 0 then (true, c) else (false, c.cntrPop)

/-- `Cond(c)`: its value and the state after evaluating it; codes 0 to 13 and 15 have no side effect
(47_program_flow.md R281, R282). -/
def evalCond (cond : Cond) (c : Cpu) : Bool × Cpu :=
  match cond with
  | .notCe => counterCond c
  | cond => (flagCond cond c.astat, c)

/-- Conditional execution: the condition is evaluated once, first; when it is false nothing more is done
(47_program_flow.md R288). -/
def whenCond (cond : Cond) (act : State → State) (s : State) : State :=
  let r := evalCond cond s.cpu
  let s := { s with cpu := r.2 }
  if r.1 then act s else s

/-! ### The address generators -/

/-- The index after an update: one correction by the length at most, on integers, then 14 bits
(41_dag_memory.md R140, R146). -/
def dagNext (index base len modifier : Addr) : Addr :=
  let i : Int := index.toNat + modifier.toInt
  let i := if i < base.toNat then i + len.toNat else if (base.toNat + len.toNat : Int) ≤ i then i - len.toNat else i
  BitVec.ofInt 14 i

/-- `DagUpdate(k, m)`: I[k] moves by M[m]; M, L and BASE do not change (41_dag_memory.md R140). -/
def Cpu.dagUpdate (k m : Fin 8) (c : Cpu) : Cpu :=
  { c with i := c.i.set k (dagNext c.i[k] c.base[k] c.l[k] c.m[m]) }

/-- `DagAddress(k, DM)`: a DAG1 address is bit-reversed while BIT_REV is 1 (41_dag_memory.md R141). -/
def Cpu.dmAddress (k : Fin 8) (c : Cpu) : Addr := if k.val < 4 && c.bitRev then rev14 c.i[k] else c.i[k]

/-- `DagAddress(k, PM)`: never bit-reversed (41_dag_memory.md R141). -/
def Cpu.pmAddress (k : Fin 8) (c : Cpu) : Addr := c.i[k]

/-- `DmReadDag(k, m)` (41_dag_memory.md R142). -/
def dmReadDag (k m : Fin 8) (s : State) : Word × State :=
  let r := dmRead (s.cpu.dmAddress k) s
  (r.1, onCpu (Cpu.dagUpdate k m) r.2)

/-- `DmWriteDag(k, m, v)` (41_dag_memory.md R142). -/
def dmWriteDag (k m : Fin 8) (v : Word) (s : State) : State :=
  onCpu (Cpu.dagUpdate k m) (dmWrite (s.cpu.dmAddress k) v s)

/-- `PmReadDag(k, m)`: the payload is delivered, the tag goes to PX (41_dag_memory.md R144). -/
def pmReadDag (k m : Fin 8) (s : State) : Word × State :=
  let r := pmRead (s.cpu.pmAddress k) s
  (r.1.extractLsb' 8 16, onCpu (fun c => Cpu.dagUpdate k m { c with px := r.1.extractLsb' 0 8 }) r.2)

/-- `PmWriteDag(k, m, v)`: the word written is `v ∥ PX` (41_dag_memory.md R145). -/
def pmWriteDag (k m : Fin 8) (v : Word) (s : State) : State :=
  onCpu (Cpu.dagUpdate k m) (pmWrite (s.cpu.pmAddress k) (v ++ s.cpu.px) s)

/-! ### Interrupts -/

/-- `Pending(n)`: the latch of an edge-sensitive line, the level of a level-sensitive one (60_exceptions.md R314). -/
def Cpu.pending (c : Cpu) (n : Fin Config.numIrq) : Bool :=
  if c.icntl.getLsbD n then c.irqLatch.getLsbD n else c.irqLine.getLsbD n

/-- `Takeable(n)` (60_exceptions.md R314). -/
def Cpu.takeable (c : Cpu) (n : Fin Config.numIrq) : Bool := c.pending n && c.imask.getLsbD n

/-- The highest-numbered takeable line, if any (60_exceptions.md R315). -/
def Cpu.nextInterrupt (c : Cpu) : Option (Fin Config.numIrq) :=
  [(3 : Fin Config.numIrq), 2, 1, 0].find? fun n => c.takeable n

/-- IMASK after the entry of interrupt `n`: all lines masked, or with NEST line `n` and the lines below it
(60_exceptions.md R317). -/
def entryMask (n : Fin Config.numIrq) (c : Cpu) : BitVec 4 :=
  if c.icntl.getLsbD 4 then c.imask &&& ~~~BitVec.ofNat 4 (2 ^ (n.val + 1) - 1) else 0

/-- `TakeInterrupt(n)`, CORE's one exception entry: the latch is cleared, PC and (MSTAT, IMASK, ASTAT) are pushed, PC
becomes the vector PM:n, IMASK is narrowed, and the registered callback is called with `n`, if there is one
(60_exceptions.md R317, R321). -/
def takeInterrupt (n : Fin Config.numIrq) (s : State) : State :=
  let c := { s.cpu with irqLatch := setBit s.cpu.irqLatch n false }
  let c := (c.pcPush c.pc).statPush
  { s with
    cpu := { c with pc := BitVec.ofNat 14 n, imask := entryMask n c }
    acks := if s.irqCallback then s.acks ++ [n] else s.acks }

/-- PC takes the popped address (47_program_flow.md R289, R290). -/
def Cpu.pcReturn (c : Cpu) : Cpu := { c.pcPop with pc := c.pcTop }

/-- The return from an interrupt: PC takes the popped address, then the status stack is popped, which is an evaluation
point (47_program_flow.md R290; 60_exceptions.md R318). -/
def returnFromInterrupt (s : State) : State := statPop (onCpu Cpu.pcReturn s)

/-- `EvaluateInterrupts()`: one interrupt at most is taken (60_exceptions.md R315, R316). -/
def evaluateInterrupts (s : State) : State :=
  match s.cpu.nextInterrupt with
  | some n => takeInterrupt n s
  | none => s

end Sys2Proof.Machine
end

