-- ==== Sys2Proof/Machine/Dag.lean ====
section
/-!
DEFINITION. Address modification, direct data memory access and the immediate store (41_dag_memory.md R147 to R150).
-/
namespace Sys2Proof.Machine

/-- `MODIFY(In, Mn)`: the address update without an access (41_dag_memory.md R147). -/
def execModify (g : Gen) (i m : BitVec 2) (s : State) : Result :=
  .next (onCpu (Cpu.dagUpdate (dagSlot g i) (dagSlot g m)) s)

/-- `reg = DM(addr)`: the read is made whatever the slot (41_dag_memory.md R148). -/
def execLoadDirect (dst : Slot) (addr : Addr) (s : State) : Result :=
  let r := dmRead addr s
  .next (regWrite dst r.1 r.2)

/-- `DM(addr) = reg` (41_dag_memory.md R149). -/
def execStoreDirect (addr : Addr) (src : Slot) (s : State) : Result := .next (dmWrite addr (regRead src s.cpu) s)

/-- `DM(In, Mn) = data16` (41_dag_memory.md R150). -/
def execStoreImm (g : Gen) (data : Word) (i m : BitVec 2) (s : State) : Result :=
  .next (dmWriteDag (dagSlot g i) (dagSlot g m) data s)

end Sys2Proof.Machine
end

