-- ==== Sys2Proof/Machine/Flow.lean ====
section
/-!
DEFINITION. NOP, the reserved words, jumps, calls, returns and the opening of a loop (47_program_flow.md R283 to R293).
-/
namespace Sys2Proof.Machine

/-- PC replaced (47_program_flow.md R284). -/
def Cpu.jumpTo (target : Addr) (c : Cpu) : Cpu := { c with pc := target }

/-- A call: PC as the step left it is pushed, then replaced; a full PC stack drops the push and the jump is made all
the same (47_program_flow.md R285). -/
def Cpu.callTo (target : Addr) (c : Cpu) : Cpu := (c.pcPush c.pc).jumpTo target

/-- `NOP` (47_program_flow.md R283). -/
def execNop (s : State) : Result := .next s

/-- Reserved top byte 0x01 (47_program_flow.md R293). -/
def execReserved01 (s : State) : Result := .next s

/-- Reserved top byte 0x02 (47_program_flow.md R293). -/
def execReserved02 (s : State) : Result := .next s

/-- Reserved top byte 0x03 (47_program_flow.md R293). -/
def execReserved03 (s : State) : Result := .next s

/-- Reserved top byte 0x08 (47_program_flow.md R293). -/
def execReserved08 (s : State) : Result := .next s

/-- `[IF cond] JUMP addr` (47_program_flow.md R284). -/
def execJump (addr : Addr) (cond : Cond) (s : State) : Result := .next (whenCond cond (onCpu (Cpu.jumpTo addr)) s)

/-- `[IF cond] CALL addr` (47_program_flow.md R285). -/
def execCall (addr : Addr) (cond : Cond) (s : State) : Result := .next (whenCond cond (onCpu (Cpu.callTo addr)) s)

/-- `[IF cond] JUMP (In)` through I[4 + i] (47_program_flow.md R286). -/
def execJumpInd (i : BitVec 2) (cond : Cond) (s : State) : Result :=
  .next (whenCond cond (onCpu fun c => c.jumpTo c.i[dagSlot .dag2 i]) s)

/-- `[IF cond] CALL (In)` through I[4 + i] (47_program_flow.md R287). -/
def execCallInd (i : BitVec 2) (cond : Cond) (s : State) : Result :=
  .next (whenCond cond (onCpu fun c => c.callTo c.i[dagSlot .dag2 i]) s)

/-- `[IF cond] RTS` (47_program_flow.md R289). -/
def execRts (cond : Cond) (s : State) : Result := .next (whenCond cond (onCpu Cpu.pcReturn) s)

/-- `[IF cond] RTI` (47_program_flow.md R290). -/
def execRti (cond : Cond) (s : State) : Result := .next (whenCond cond returnFromInterrupt s)

/-- `DO addr UNTIL term`: each push is judged on its own; the loop start is PC as the step left it
(47_program_flow.md R291). -/
def execDoUntil (addr : Addr) (term : Cond) (s : State) : Result :=
  .next (onCpu (fun c => (c.loopPush ⟨addr, term⟩).pcPush c.pc) s)

end Sys2Proof.Machine
end

