-- ==== Sys2Proof/Machine/Move.lean ====
section
/-!
DEFINITION. Register moves, immediate loads and mode control (40_register_move.md R130 to R133).
-/
namespace Sys2Proof.Machine

/-- `reg = reg`: the value is read, widened, before it is written (40_register_move.md R130). -/
def execMoveReg (dst src : Slot) (s : State) : Result := .next (regWrite dst (regRead src s.cpu) s)

/-- `dreg = data16` (40_register_move.md R131). -/
def execLoadImm16 (data : Word) (dreg : BitVec 4) (s : State) : Result := .next (regWrite (dregSlot dreg) data s)

/-- `reg = data14`: the immediate is sign-extended from bit 13 (40_register_move.md R132). -/
def execLoadImm14 (dst : Slot) (data : BitVec 14) (s : State) : Result := .next (regWrite dst (data.signExtend 16) s)

/-- One field of mode control: its high bit asks for a change of mode bit `i`, its low bit is the new value
(40_register_move.md R133). -/
def modeChange (field : BitVec 2) (i : Nat) (mstat : BitVec 5) : BitVec 5 :=
  if field.getLsbD 1 then setBit mstat i (field.getLsbD 0) else mstat

/-- MSTAT after mode control, the fields taken in the order of R133 (40_register_move.md R133). -/
def modeControlled (mm sat ol br sr : BitVec 2) (mstat : BitVec 5) : BitVec 5 :=
  modeChange mm 4 (modeChange sat 3 (modeChange ol 2 (modeChange br 1 (modeChange sr 0 mstat))))

/-- `ENA mode` / `DIS mode`; the fields TI and GM are ignored (40_register_move.md R133). -/
def execModeControl (_ti mm sat ol br sr _gm : BitVec 2) (s : State) : Result :=
  .next (onCpu (fun c => c.setMstat (modeControlled mm sat ol br sr c.mstat)) s)

end Sys2Proof.Machine
end

