-- ==== Sys2Proof/Machine/Alu.lean ====
section
/-!
DEFINITION. The ALU: routing and saturation (43_alu.md R172), the sixteen functions in their conditional form (R173 to
R189) and the divide primitives (R190, R191).
-/
namespace Sys2Proof.Machine

/-- `AluWrite(Z, res, v, c)`: AR, clamped by the carry when AR_SAT is 1 and this operation overflowed; AF, never clamped
(43_alu.md R172). -/
def Cpu.aluWrite (z : Dest) (o : AluOut) (c : Cpu) : Cpu :=
  match z with
  | .primary =>
    c.withLive fun b => { b with ar := if c.arSat && o.v then (if o.c then 0x8000 else 0x7FFF) else o.res }
  | .feedback => c.withLive fun b => { b with af := o.res }

/-- AS takes the sign of the operand of ABS; no other function writes it (43_alu.md R188). -/
def Cpu.setAbsSign (fn : AluFn) (x : Word) (c : Cpu) : Cpu :=
  match fn with
  | .absX => c.setFlag bitAS (x.getLsbD 15)
  | .passY | .incY | .addC | .add | .notY | .negY | .subC | .sub | .decY | .rsub | .rsubC | .notX | .and | .or | .xor => c

/-- What an ALU function produces from the operand selects and the carry of the state before (43_alu.md R170 to
R188). -/
def Cpu.aluResult (fn : AluFn) (yop : BitVec 2) (xop : BitVec 3) (c : Cpu) : AluOut :=
  aluCompute fn (aluX xop c) (aluY yop c) (c.flag bitAC)

/-- An ALU operation: flags, then the destination (43_alu.md R170 to R188). -/
def aluPart (z : Dest) (fn : AluFn) (yop : BitVec 2) (xop : BitVec 3) (c : Cpu) : Cpu :=
  ((c.setAluFlags (c.aluResult fn yop xop)).setAbsSign fn (aluX xop c)).aluWrite z (c.aluResult fn yop xop)

/-- The conditional form of an ALU function (43_alu.md R189). -/
def aluIf (z : Dest) (fn : AluFn) (yop : BitVec 2) (xop : BitVec 3) (cond : Cond) (s : State) : State :=
  whenCond cond (onCpu (aluPart z fn yop xop)) s

/-- `[IF cond] AR = yop` (43_alu.md R173, R189). -/
def execArPassY (yop : BitVec 2) (xop : BitVec 3) (cond : Cond) (s : State) : Result :=
  .next (aluIf .primary .passY yop xop cond s)

/-- `[IF cond] AF = yop` (43_alu.md R173, R189). -/
def execAfPassY (yop : BitVec 2) (xop : BitVec 3) (cond : Cond) (s : State) : Result :=
  .next (aluIf .feedback .passY yop xop cond s)

/-- `[IF cond] AR = yop + 1` (43_alu.md R174, R189). -/
def execArIncY (yop : BitVec 2) (xop : BitVec 3) (cond : Cond) (s : State) : Result :=
  .next (aluIf .primary .incY yop xop cond s)

/-- `[IF cond] AF = yop + 1` (43_alu.md R174, R189). -/
def execAfIncY (yop : BitVec 2) (xop : BitVec 3) (cond : Cond) (s : State) : Result :=
  .next (aluIf .feedback .incY yop xop cond s)

/-- `[IF cond] AR = xop + yop + C` (43_alu.md R175, R189). -/
def execArAddC (yop : BitVec 2) (xop : BitVec 3) (cond : Cond) (s : State) : Result :=
  .next (aluIf .primary .addC yop xop cond s)

/-- `[IF cond] AF = xop + yop + C` (43_alu.md R175, R189). -/
def execAfAddC (yop : BitVec 2) (xop : BitVec 3) (cond : Cond) (s : State) : Result :=
  .next (aluIf .feedback .addC yop xop cond s)

/-- `[IF cond] AR = xop + yop` (43_alu.md R176, R189). -/
def execArAdd (yop : BitVec 2) (xop : BitVec 3) (cond : Cond) (s : State) : Result :=
  .next (aluIf .primary .add yop xop cond s)

/-- `[IF cond] AF = xop + yop` (43_alu.md R176, R189). -/
def execAfAdd (yop : BitVec 2) (xop : BitVec 3) (cond : Cond) (s : State) : Result :=
  .next (aluIf .feedback .add yop xop cond s)

/-- `[IF cond] AR = NOT yop` (43_alu.md R177, R189). -/
def execArNotY (yop : BitVec 2) (xop : BitVec 3) (cond : Cond) (s : State) : Result :=
  .next (aluIf .primary .notY yop xop cond s)

/-- `[IF cond] AF = NOT yop` (43_alu.md R177, R189). -/
def execAfNotY (yop : BitVec 2) (xop : BitVec 3) (cond : Cond) (s : State) : Result :=
  .next (aluIf .feedback .notY yop xop cond s)

/-- `[IF cond] AR = -yop` (43_alu.md R178, R189). -/
def execArNegY (yop : BitVec 2) (xop : BitVec 3) (cond : Cond) (s : State) : Result :=
  .next (aluIf .primary .negY yop xop cond s)

/-- `[IF cond] AF = -yop` (43_alu.md R178, R189). -/
def execAfNegY (yop : BitVec 2) (xop : BitVec 3) (cond : Cond) (s : State) : Result :=
  .next (aluIf .feedback .negY yop xop cond s)

/-- `[IF cond] AR = xop - yop + C - 1` (43_alu.md R179, R189). -/
def execArSubC (yop : BitVec 2) (xop : BitVec 3) (cond : Cond) (s : State) : Result :=
  .next (aluIf .primary .subC yop xop cond s)

/-- `[IF cond] AF = xop - yop + C - 1` (43_alu.md R179, R189). -/
def execAfSubC (yop : BitVec 2) (xop : BitVec 3) (cond : Cond) (s : State) : Result :=
  .next (aluIf .feedback .subC yop xop cond s)

/-- `[IF cond] AR = xop - yop` (43_alu.md R180, R189). -/
def execArSub (yop : BitVec 2) (xop : BitVec 3) (cond : Cond) (s : State) : Result :=
  .next (aluIf .primary .sub yop xop cond s)

/-- `[IF cond] AF = xop - yop` (43_alu.md R180, R189). -/
def execAfSub (yop : BitVec 2) (xop : BitVec 3) (cond : Cond) (s : State) : Result :=
  .next (aluIf .feedback .sub yop xop cond s)

/-- `[IF cond] AR = yop - 1` (43_alu.md R181, R189). -/
def execArDecY (yop : BitVec 2) (xop : BitVec 3) (cond : Cond) (s : State) : Result :=
  .next (aluIf .primary .decY yop xop cond s)

/-- `[IF cond] AF = yop - 1` (43_alu.md R181, R189). -/
def execAfDecY (yop : BitVec 2) (xop : BitVec 3) (cond : Cond) (s : State) : Result :=
  .next (aluIf .feedback .decY yop xop cond s)

/-- `[IF cond] AR = yop - xop` (43_alu.md R182, R189). -/
def execArRsub (yop : BitVec 2) (xop : BitVec 3) (cond : Cond) (s : State) : Result :=
  .next (aluIf .primary .rsub yop xop cond s)

/-- `[IF cond] AF = yop - xop` (43_alu.md R182, R189). -/
def execAfRsub (yop : BitVec 2) (xop : BitVec 3) (cond : Cond) (s : State) : Result :=
  .next (aluIf .feedback .rsub yop xop cond s)

/-- `[IF cond] AR = yop - xop + C - 1` (43_alu.md R183, R189). -/
def execArRsubC (yop : BitVec 2) (xop : BitVec 3) (cond : Cond) (s : State) : Result :=
  .next (aluIf .primary .rsubC yop xop cond s)

/-- `[IF cond] AF = yop - xop + C - 1` (43_alu.md R183, R189). -/
def execAfRsubC (yop : BitVec 2) (xop : BitVec 3) (cond : Cond) (s : State) : Result :=
  .next (aluIf .feedback .rsubC yop xop cond s)

/-- `[IF cond] AR = NOT xop` (43_alu.md R184, R189). -/
def execArNotX (yop : BitVec 2) (xop : BitVec 3) (cond : Cond) (s : State) : Result :=
  .next (aluIf .primary .notX yop xop cond s)

/-- `[IF cond] AF = NOT xop` (43_alu.md R184, R189). -/
def execAfNotX (yop : BitVec 2) (xop : BitVec 3) (cond : Cond) (s : State) : Result :=
  .next (aluIf .feedback .notX yop xop cond s)

/-- `[IF cond] AR = xop AND yop` (43_alu.md R185, R189). -/
def execArAnd (yop : BitVec 2) (xop : BitVec 3) (cond : Cond) (s : State) : Result :=
  .next (aluIf .primary .and yop xop cond s)

/-- `[IF cond] AF = xop AND yop` (43_alu.md R185, R189). -/
def execAfAnd (yop : BitVec 2) (xop : BitVec 3) (cond : Cond) (s : State) : Result :=
  .next (aluIf .feedback .and yop xop cond s)

/-- `[IF cond] AR = xop OR yop` (43_alu.md R186, R189). -/
def execArOr (yop : BitVec 2) (xop : BitVec 3) (cond : Cond) (s : State) : Result :=
  .next (aluIf .primary .or yop xop cond s)

/-- `[IF cond] AF = xop OR yop` (43_alu.md R186, R189). -/
def execAfOr (yop : BitVec 2) (xop : BitVec 3) (cond : Cond) (s : State) : Result :=
  .next (aluIf .feedback .or yop xop cond s)

/-- `[IF cond] AR = xop XOR yop` (43_alu.md R187, R189). -/
def execArXor (yop : BitVec 2) (xop : BitVec 3) (cond : Cond) (s : State) : Result :=
  .next (aluIf .primary .xor yop xop cond s)

/-- `[IF cond] AF = xop XOR yop` (43_alu.md R187, R189). -/
def execAfXor (yop : BitVec 2) (xop : BitVec 3) (cond : Cond) (s : State) : Result :=
  .next (aluIf .feedback .xor yop xop cond s)

/-- `[IF cond] AR = ABS xop` (43_alu.md R188, R189). -/
def execArAbsX (yop : BitVec 2) (xop : BitVec 3) (cond : Cond) (s : State) : Result :=
  .next (aluIf .primary .absX yop xop cond s)

/-- `[IF cond] AF = ABS xop` (43_alu.md R188, R189). -/
def execAfAbsX (yop : BitVec 2) (xop : BitVec 3) (cond : Cond) (s : State) : Result :=
  .next (aluIf .feedback .absX yop xop cond s)

/-- `DIVS yop, xop`: the sign of the quotient, and the first shift of the dividend; AY0 on the right is the old one
(43_alu.md R190). -/
def divideSign (yop : BitVec 2) (xop : BitVec 3) (c : Cpu) : Cpu :=
  let y := aluY yop c
  let sign := (aluX xop c ^^^ y).getLsbD 15
  (c.setFlag bitAQ sign).withLive fun b =>
    { b with af := y <<< 1 ||| (BitVec.ofBool (b.ay0.getLsbD 15)).setWidth 16,
             ay0 := b.ay0 <<< 1 ||| (BitVec.ofBool sign).setWidth 16 }

/-- `DIVQ xop`: one quotient bit; the sum is formed in 16 bits, where its bit shifted out is lost
(43_alu.md R191). -/
def divideStep (xop : BitVec 3) (c : Cpu) : Cpu :=
  let x := aluX xop c
  let r := if c.flag bitAQ then c.live.af + x else c.live.af - x
  let sign := (r ^^^ x).getLsbD 15
  (c.setFlag bitAQ sign).withLive fun b =>
    { b with af := r <<< 1 ||| (BitVec.ofBool (b.ay0.getLsbD 15)).setWidth 16,
             ay0 := b.ay0 <<< 1 ||| (BitVec.ofBool (!sign)).setWidth 16 }

/-- `DIVS yop, xop` (43_alu.md R190). -/
def execDivs (yop : BitVec 2) (xop : BitVec 3) (s : State) : Result := .next (onCpu (divideSign yop xop) s)

/-- `DIVQ xop` (43_alu.md R191). -/
def execDivq (xop : BitVec 3) (s : State) : Result := .next (onCpu (divideStep xop) s)

end Sys2Proof.Machine
end

