-- ==== Sys2Proof/Machine/Mac.lean ====
section
/-!
DEFINITION. The multiplier / accumulator: product, rounding, overflow and destination (44_mac.md R200 to R203), the
sixteen functions in their conditional form (R204 to R220) and the saturation of MR (R221).
-/
namespace Sys2Proof.Machine

/-- What a product is joined with (44_mac.md R203, `acc`). -/
inductive MacAcc where
  | none
  | plus
  | minus
deriving DecidableEq, Repr

/-- The parameters of the complete operation `Mac(acc, xs, ys, rnd, Z)` but Z (44_mac.md R203). -/
structure MacPlan where
  acc : MacAcc
  xSigned : Bool
  ySigned : Bool
  rnd : Bool
deriving DecidableEq, Repr

/-- The plan of each function; none for code 0, which does nothing (44_mac.md R204 to R219). -/
def macPlan : MacFn → Option MacPlan
  | .noOp => none
  | .mulRnd => some ⟨.none, true, true, true⟩
  | .addRnd => some ⟨.plus, true, true, true⟩
  | .subRnd => some ⟨.minus, true, true, true⟩
  | .mulSS => some ⟨.none, true, true, false⟩
  | .mulSU => some ⟨.none, true, false, false⟩
  | .mulUS => some ⟨.none, false, true, false⟩
  | .mulUU => some ⟨.none, false, false, false⟩
  | .addSS => some ⟨.plus, true, true, false⟩
  | .addSU => some ⟨.plus, true, false, false⟩
  | .addUS => some ⟨.plus, false, true, false⟩
  | .addUU => some ⟨.plus, false, false, false⟩
  | .subSS => some ⟨.minus, true, true, false⟩
  | .subSU => some ⟨.minus, true, false, false⟩
  | .subUS => some ⟨.minus, false, true, false⟩
  | .subUU => some ⟨.minus, false, false, false⟩

/-- An operand as the number its function reads it as (44_mac.md R200). -/
def macOperand (signed : Bool) (v : Word) : Int := if signed then v.toInt else v.toNat

/-- PS: the exact product, doubled in the fractional mode (44_mac.md R201). -/
def macProduct (p : MacPlan) (x y : Word) (mMode : Bool) : Int :=
  let product := macOperand p.xSigned x * macOperand p.ySigned y
  if mMode then product else 2 * product

/-- `MacRound(r, PS)`: half is added, and bit 16 cleared when the low 16 bits of PS are exactly 0x8000
(44_mac.md R202). -/
def macRound (r ps : Int) : BitVec 40 :=
  let q := BitVec.ofInt 40 (r + 0x8000)
  if BitVec.ofInt 16 ps == 0x8000 then setBit q 16 false else q

/-- The 40-bit result of a function on its operands and MR (44_mac.md R201 to R203). -/
def macResult (p : MacPlan) (x y : Word) (mMode : Bool) (mr : BitVec 40) : BitVec 40 :=
  let ps := macProduct p x y mMode
  let r := match p.acc with
    | .none => ps
    | .plus => mr.toInt + ps
    | .minus => mr.toInt - ps
  if p.rnd then macRound r ps else BitVec.ofInt 40 r

/-- `MacWrite(Z, q)`: MV from the 40-bit result; MR, or the middle word to MF with MR as it was (44_mac.md R203). -/
def Cpu.macWrite (z : Dest) (q : BitVec 40) (c : Cpu) : Cpu :=
  let c := c.setFlag bitMV (macOverflow q)
  match z with
  | .primary =>
    c.withLive fun b => { b with mr2 := q.extractLsb' 32 8, mr1 := q.extractLsb' 16 16, mr0 := q.extractLsb' 0 16 }
  | .feedback => c.withLive fun b => { b with mf := q.extractLsb' 16 16 }

/-- A MAC operation (44_mac.md R200 to R219). -/
def macPart (z : Dest) (fn : MacFn) (yop : BitVec 2) (xop : BitVec 3) (c : Cpu) : Cpu :=
  match macPlan fn with
  | none => c
  | some p => c.macWrite z (macResult p (macX xop c) (macY yop c) c.mMode c.live.mr)

/-- The conditional form of a MAC function (44_mac.md R220). -/
def macIf (z : Dest) (fn : MacFn) (yop : BitVec 2) (xop : BitVec 3) (cond : Cond) (s : State) : State :=
  whenCond cond (onCpu (macPart z fn yop xop)) s

/-- `[IF cond]` with MAC function 0: the condition is evaluated, nothing else is done (44_mac.md R204, R220). -/
def execCondNoCompute (z : Dest) (yop : BitVec 2) (xop : BitVec 3) (cond : Cond) (s : State) : Result :=
  .next (macIf z .noOp yop xop cond s)

/-- `[IF cond] MR = xop * yop (RND)` (44_mac.md R205, R220). -/
def execMrMulRnd (yop : BitVec 2) (xop : BitVec 3) (cond : Cond) (s : State) : Result :=
  .next (macIf .primary .mulRnd yop xop cond s)

/-- `[IF cond] MF = xop * yop (RND)` (44_mac.md R205, R220). -/
def execMfMulRnd (yop : BitVec 2) (xop : BitVec 3) (cond : Cond) (s : State) : Result :=
  .next (macIf .feedback .mulRnd yop xop cond s)

/-- `[IF cond] MR = MR + xop * yop (RND)` (44_mac.md R206, R220). -/
def execMrAddRnd (yop : BitVec 2) (xop : BitVec 3) (cond : Cond) (s : State) : Result :=
  .next (macIf .primary .addRnd yop xop cond s)

/-- `[IF cond] MF = MR + xop * yop (RND)` (44_mac.md R206, R220). -/
def execMfAddRnd (yop : BitVec 2) (xop : BitVec 3) (cond : Cond) (s : State) : Result :=
  .next (macIf .feedback .addRnd yop xop cond s)

/-- `[IF cond] MR = MR - xop * yop (RND)` (44_mac.md R207, R220). -/
def execMrSubRnd (yop : BitVec 2) (xop : BitVec 3) (cond : Cond) (s : State) : Result :=
  .next (macIf .primary .subRnd yop xop cond s)

/-- `[IF cond] MF = MR - xop * yop (RND)` (44_mac.md R207, R220). -/
def execMfSubRnd (yop : BitVec 2) (xop : BitVec 3) (cond : Cond) (s : State) : Result :=
  .next (macIf .feedback .subRnd yop xop cond s)

/-- `[IF cond] MR = xop * yop (SS)` (44_mac.md R208, R220). -/
def execMrMulSS (yop : BitVec 2) (xop : BitVec 3) (cond : Cond) (s : State) : Result :=
  .next (macIf .primary .mulSS yop xop cond s)

/-- `[IF cond] MF = xop * yop (SS)` (44_mac.md R208, R220). -/
def execMfMulSS (yop : BitVec 2) (xop : BitVec 3) (cond : Cond) (s : State) : Result :=
  .next (macIf .feedback .mulSS yop xop cond s)

/-- `[IF cond] MR = xop * yop (SU)` (44_mac.md R209, R220). -/
def execMrMulSU (yop : BitVec 2) (xop : BitVec 3) (cond : Cond) (s : State) : Result :=
  .next (macIf .primary .mulSU yop xop cond s)

/-- `[IF cond] MF = xop * yop (SU)` (44_mac.md R209, R220). -/
def execMfMulSU (yop : BitVec 2) (xop : BitVec 3) (cond : Cond) (s : State) : Result :=
  .next (macIf .feedback .mulSU yop xop cond s)

/-- `[IF cond] MR = xop * yop (US)` (44_mac.md R210, R220). -/
def execMrMulUS (yop : BitVec 2) (xop : BitVec 3) (cond : Cond) (s : State) : Result :=
  .next (macIf .primary .mulUS yop xop cond s)

/-- `[IF cond] MF = xop * yop (US)` (44_mac.md R210, R220). -/
def execMfMulUS (yop : BitVec 2) (xop : BitVec 3) (cond : Cond) (s : State) : Result :=
  .next (macIf .feedback .mulUS yop xop cond s)

/-- `[IF cond] MR = xop * yop (UU)` (44_mac.md R211, R220). -/
def execMrMulUU (yop : BitVec 2) (xop : BitVec 3) (cond : Cond) (s : State) : Result :=
  .next (macIf .primary .mulUU yop xop cond s)

/-- `[IF cond] MF = xop * yop (UU)` (44_mac.md R211, R220). -/
def execMfMulUU (yop : BitVec 2) (xop : BitVec 3) (cond : Cond) (s : State) : Result :=
  .next (macIf .feedback .mulUU yop xop cond s)

/-- `[IF cond] MR = MR + xop * yop (SS)` (44_mac.md R212, R220). -/
def execMrAddSS (yop : BitVec 2) (xop : BitVec 3) (cond : Cond) (s : State) : Result :=
  .next (macIf .primary .addSS yop xop cond s)

/-- `[IF cond] MF = MR + xop * yop (SS)` (44_mac.md R212, R220). -/
def execMfAddSS (yop : BitVec 2) (xop : BitVec 3) (cond : Cond) (s : State) : Result :=
  .next (macIf .feedback .addSS yop xop cond s)

/-- `[IF cond] MR = MR + xop * yop (SU)` (44_mac.md R213, R220). -/
def execMrAddSU (yop : BitVec 2) (xop : BitVec 3) (cond : Cond) (s : State) : Result :=
  .next (macIf .primary .addSU yop xop cond s)

/-- `[IF cond] MF = MR + xop * yop (SU)` (44_mac.md R213, R220). -/
def execMfAddSU (yop : BitVec 2) (xop : BitVec 3) (cond : Cond) (s : State) : Result :=
  .next (macIf .feedback .addSU yop xop cond s)

/-- `[IF cond] MR = MR + xop * yop (US)` (44_mac.md R214, R220). -/
def execMrAddUS (yop : BitVec 2) (xop : BitVec 3) (cond : Cond) (s : State) : Result :=
  .next (macIf .primary .addUS yop xop cond s)

/-- `[IF cond] MF = MR + xop * yop (US)` (44_mac.md R214, R220). -/
def execMfAddUS (yop : BitVec 2) (xop : BitVec 3) (cond : Cond) (s : State) : Result :=
  .next (macIf .feedback .addUS yop xop cond s)

/-- `[IF cond] MR = MR + xop * yop (UU)` (44_mac.md R215, R220). -/
def execMrAddUU (yop : BitVec 2) (xop : BitVec 3) (cond : Cond) (s : State) : Result :=
  .next (macIf .primary .addUU yop xop cond s)

/-- `[IF cond] MF = MR + xop * yop (UU)` (44_mac.md R215, R220). -/
def execMfAddUU (yop : BitVec 2) (xop : BitVec 3) (cond : Cond) (s : State) : Result :=
  .next (macIf .feedback .addUU yop xop cond s)

/-- `[IF cond] MR = MR - xop * yop (SS)` (44_mac.md R216, R220). -/
def execMrSubSS (yop : BitVec 2) (xop : BitVec 3) (cond : Cond) (s : State) : Result :=
  .next (macIf .primary .subSS yop xop cond s)

/-- `[IF cond] MF = MR - xop * yop (SS)` (44_mac.md R216, R220). -/
def execMfSubSS (yop : BitVec 2) (xop : BitVec 3) (cond : Cond) (s : State) : Result :=
  .next (macIf .feedback .subSS yop xop cond s)

/-- `[IF cond] MR = MR - xop * yop (SU)` (44_mac.md R217, R220). -/
def execMrSubSU (yop : BitVec 2) (xop : BitVec 3) (cond : Cond) (s : State) : Result :=
  .next (macIf .primary .subSU yop xop cond s)

/-- `[IF cond] MF = MR - xop * yop (SU)` (44_mac.md R217, R220). -/
def execMfSubSU (yop : BitVec 2) (xop : BitVec 3) (cond : Cond) (s : State) : Result :=
  .next (macIf .feedback .subSU yop xop cond s)

/-- `[IF cond] MR = MR - xop * yop (US)` (44_mac.md R218, R220). -/
def execMrSubUS (yop : BitVec 2) (xop : BitVec 3) (cond : Cond) (s : State) : Result :=
  .next (macIf .primary .subUS yop xop cond s)

/-- `[IF cond] MF = MR - xop * yop (US)` (44_mac.md R218, R220). -/
def execMfSubUS (yop : BitVec 2) (xop : BitVec 3) (cond : Cond) (s : State) : Result :=
  .next (macIf .feedback .subUS yop xop cond s)

/-- `[IF cond] MR = MR - xop * yop (UU)` (44_mac.md R219, R220). -/
def execMrSubUU (yop : BitVec 2) (xop : BitVec 3) (cond : Cond) (s : State) : Result :=
  .next (macIf .primary .subUU yop xop cond s)

/-- `[IF cond] MF = MR - xop * yop (UU)` (44_mac.md R219, R220). -/
def execMfSubUU (yop : BitVec 2) (xop : BitVec 3) (cond : Cond) (s : State) : Result :=
  .next (macIf .feedback .subUU yop xop cond s)

/-- MR at the limit of its sign while MV is 1; MV stays (44_mac.md R221). -/
def saturateMr (c : Cpu) : Cpu :=
  if c.flag bitMV then
    c.withLive fun b =>
      if b.mr2.getLsbD 7 then { b with mr2 := 0xFF, mr1 := 0x8000, mr0 := 0x0000 }
      else { b with mr2 := 0x00, mr1 := 0x7FFF, mr0 := 0xFFFF }
  else c

/-- `IF MV SAT MR` (44_mac.md R221). -/
def execSatMr (s : State) : Result := .next (onCpu saturateMr s)

end Sys2Proof.Machine
end

