-- ==== Sys2Proof/Machine/Shift.lean ====
section
/-!
DEFINITION. The shifter: the primitives (45_shifter.md R230, R231), the sixteen functions (R232 to R247), their
conditional form (R248) and the shifts by an immediate (R249).
-/
namespace Sys2Proof.Machine

/-- `Lsh(v, sc)` (45_shifter.md R231). -/
def lsh (v : BitVec 32) (sc : Int) : BitVec 32 :=
  if 0 < sc then if sc < 32 then v <<< sc.toNat else 0
  else if -32 < sc then v >>> (-sc).toNat else 0

/-- `Ash(s, sc)` on a signed integer; a right shift rounds down, which fills with the sign (45_shifter.md R231). -/
def ash (v sc : Int) : BitVec 32 :=
  if 0 < sc then if sc < 32 then BitVec.ofInt 32 (v * 2 ^ sc.toNat) else 0
  else BitVec.ofInt 32 (v / 2 ^ (-sc).toNat)

/-- The operand in the high word of the 32-bit field (45_shifter.md R231). -/
def hiField (x : Word) : BitVec 32 := x ++ (0 : Word)

/-- NORM (HI): AC becomes the sign of a right shift; else a left shift by `-sc` (45_shifter.md R240). -/
def normHiResult (x : Word) (ac : Bool) (sc : Int) : BitVec 32 :=
  if 0 < sc then ((BitVec.ofBool ac).setWidth 32 <<< 31 ||| hiField x >>> 1).sshiftRight (sc - 1).toNat
  else lsh (hiField x) (-sc)

/-- NORM (LO): the logical shift in the sense opposite to LSHIFT (45_shifter.md R242). -/
def normLoResult (x : Word) (sc : Int) : BitVec 32 := lsh (x.setWidth 32) (-sc)

/-- E: the count of redundant sign bits of `x` (45_shifter.md R244). -/
def redundantSigns (x : Word) : Nat := countEqual x (x.getLsbD 15) 15

/-- `SrWrite(or, res)` (45_shifter.md R231). -/
def Cpu.srWrite (merge : Bool) (res : BitVec 32) (c : Cpu) : Cpu :=
  c.withLive fun b =>
    let v := if merge then res ||| b.sr else res
    { b with sr1 := v.extractLsb' 16 16, sr0 := v.extractLsb' 0 16 }

/-- SE replaced by an integer in 8 bits. -/
def Cpu.setSe (e : Int) (c : Cpu) : Cpu := c.withLive fun b => { b with se := BitVec.ofInt 8 e }

/-- EXP (HI) on `x` (45_shifter.md R244). -/
def expHi (x : Word) (c : Cpu) : Cpu := (c.setFlag bitSS (x.getLsbD 15)).setSe (-(redundantSigns x))

/-- EXP (HIX) on `x`: an ALU overflow gives exponent +1 and the opposite sign (45_shifter.md R245). -/
def expHix (x : Word) (c : Cpu) : Cpu :=
  if c.flag bitAV then (c.setFlag bitSS (!x.getLsbD 15)).setSe 1 else expHi x c

/-- EXP (LO) on `x`: only when the upper word was all sign (45_shifter.md R246). -/
def expLo (x : Word) (c : Cpu) : Cpu :=
  if c.live.se.toInt = -15 then c.setSe (-(15 + countEqual x (c.flag bitSS) 16)) else c

/-- EXPADJ on `x`: SB keeps the largest exponent (45_shifter.md R247). -/
def expAdj (x : Word) (c : Cpu) : Cpu :=
  if c.live.sb.toInt < -(redundantSigns x : Int) then
    c.withLive fun b => { b with sb := BitVec.ofInt 5 (-(redundantSigns x)) }
  else c

/-- A shifter function with shift code `sc` (45_shifter.md R232 to R247). -/
def shiftPart (sf : ShFn) (xop : BitVec 3) (sc : Int) (c : Cpu) : Cpu :=
  let x := shX xop c
  match sf with
  | .lshiftHi => c.srWrite false (lsh (hiField x) sc)
  | .orLshiftHi => c.srWrite true (lsh (hiField x) sc)
  | .lshiftLo => c.srWrite false (lsh (x.setWidth 32) sc)
  | .orLshiftLo => c.srWrite true (lsh (x.setWidth 32) sc)
  | .ashiftHi => c.srWrite false (ash (x.toInt * 65536) sc)
  | .orAshiftHi => c.srWrite true (ash (x.toInt * 65536) sc)
  | .ashiftLo => c.srWrite false (ash x.toInt sc)
  | .orAshiftLo => c.srWrite true (ash x.toInt sc)
  | .normHi => c.srWrite false (normHiResult x (c.flag bitAC) sc)
  | .orNormHi => c.srWrite true (normHiResult x (c.flag bitAC) sc)
  | .normLo => c.srWrite false (normLoResult x sc)
  | .orNormLo => c.srWrite true (normLoResult x sc)
  | .expHi => expHi x c
  | .expHix => expHix x c
  | .expLo => expLo x c
  | .expAdj => expAdj x c

/-- A shifter function in its register form, `sc = sgn_8(SE)` (45_shifter.md R230). -/
def shiftBySe (sf : ShFn) (xop : BitVec 3) (c : Cpu) : Cpu := shiftPart sf xop c.live.se.toInt c

/-- The conditional form of a shifter function (45_shifter.md R248). -/
def shiftIf (sf : ShFn) (xop : BitVec 3) (cond : Cond) (s : State) : State := whenCond cond (onCpu (shiftBySe sf xop)) s

/-- A shift by an immediate, `sc = sgn_8(op[7:0])` (45_shifter.md R249). -/
def shiftByImm (sf : ShFn) (xop : BitVec 3) (n : BitVec 8) (s : State) : State := onCpu (shiftPart sf xop n.toInt) s

/-- `[IF cond] SR = LSHIFT xop (HI)` (45_shifter.md R232, R248). -/
def execLshiftHi (xop : BitVec 3) (cond : Cond) (s : State) : Result := .next (shiftIf .lshiftHi xop cond s)

/-- `[IF cond] SR = SR OR LSHIFT xop (HI)` (45_shifter.md R233, R248). -/
def execOrLshiftHi (xop : BitVec 3) (cond : Cond) (s : State) : Result := .next (shiftIf .orLshiftHi xop cond s)

/-- `[IF cond] SR = LSHIFT xop (LO)` (45_shifter.md R234, R248). -/
def execLshiftLo (xop : BitVec 3) (cond : Cond) (s : State) : Result := .next (shiftIf .lshiftLo xop cond s)

/-- `[IF cond] SR = SR OR LSHIFT xop (LO)` (45_shifter.md R235, R248). -/
def execOrLshiftLo (xop : BitVec 3) (cond : Cond) (s : State) : Result := .next (shiftIf .orLshiftLo xop cond s)

/-- `[IF cond] SR = ASHIFT xop (HI)` (45_shifter.md R236, R248). -/
def execAshiftHi (xop : BitVec 3) (cond : Cond) (s : State) : Result := .next (shiftIf .ashiftHi xop cond s)

/-- `[IF cond] SR = SR OR ASHIFT xop (HI)` (45_shifter.md R237, R248). -/
def execOrAshiftHi (xop : BitVec 3) (cond : Cond) (s : State) : Result := .next (shiftIf .orAshiftHi xop cond s)

/-- `[IF cond] SR = ASHIFT xop (LO)` (45_shifter.md R238, R248). -/
def execAshiftLo (xop : BitVec 3) (cond : Cond) (s : State) : Result := .next (shiftIf .ashiftLo xop cond s)

/-- `[IF cond] SR = SR OR ASHIFT xop (LO)` (45_shifter.md R239, R248). -/
def execOrAshiftLo (xop : BitVec 3) (cond : Cond) (s : State) : Result := .next (shiftIf .orAshiftLo xop cond s)

/-- `[IF cond] SR = NORM xop (HI)` (45_shifter.md R240, R248). -/
def execNormHi (xop : BitVec 3) (cond : Cond) (s : State) : Result := .next (shiftIf .normHi xop cond s)

/-- `[IF cond] SR = SR OR NORM xop (HI)` (45_shifter.md R241, R248). -/
def execOrNormHi (xop : BitVec 3) (cond : Cond) (s : State) : Result := .next (shiftIf .orNormHi xop cond s)

/-- `[IF cond] SR = NORM xop (LO)` (45_shifter.md R242, R248). -/
def execNormLo (xop : BitVec 3) (cond : Cond) (s : State) : Result := .next (shiftIf .normLo xop cond s)

/-- `[IF cond] SR = SR OR NORM xop (LO)` (45_shifter.md R243, R248). -/
def execOrNormLo (xop : BitVec 3) (cond : Cond) (s : State) : Result := .next (shiftIf .orNormLo xop cond s)

/-- `[IF cond] SE = EXP xop (HI)` (45_shifter.md R244, R248). -/
def execExpHi (xop : BitVec 3) (cond : Cond) (s : State) : Result := .next (shiftIf .expHi xop cond s)

/-- `[IF cond] SE = EXP xop (HIX)` (45_shifter.md R245, R248). -/
def execExpHix (xop : BitVec 3) (cond : Cond) (s : State) : Result := .next (shiftIf .expHix xop cond s)

/-- `[IF cond] SE = EXP xop (LO)` (45_shifter.md R246, R248). -/
def execExpLo (xop : BitVec 3) (cond : Cond) (s : State) : Result := .next (shiftIf .expLo xop cond s)

/-- `[IF cond] SB = EXPADJ xop` (45_shifter.md R247, R248). -/
def execExpAdj (xop : BitVec 3) (cond : Cond) (s : State) : Result := .next (shiftIf .expAdj xop cond s)

/-- `SR = LSHIFT xop BY n (HI)` (45_shifter.md R232, R249). -/
def execLshiftHiImm (xop : BitVec 3) (n : BitVec 8) (s : State) : Result := .next (shiftByImm .lshiftHi xop n s)

/-- `SR = SR OR LSHIFT xop BY n (HI)` (45_shifter.md R233, R249). -/
def execOrLshiftHiImm (xop : BitVec 3) (n : BitVec 8) (s : State) : Result := .next (shiftByImm .orLshiftHi xop n s)

/-- `SR = LSHIFT xop BY n (LO)` (45_shifter.md R234, R249). -/
def execLshiftLoImm (xop : BitVec 3) (n : BitVec 8) (s : State) : Result := .next (shiftByImm .lshiftLo xop n s)

/-- `SR = SR OR LSHIFT xop BY n (LO)` (45_shifter.md R235, R249). -/
def execOrLshiftLoImm (xop : BitVec 3) (n : BitVec 8) (s : State) : Result := .next (shiftByImm .orLshiftLo xop n s)

/-- `SR = ASHIFT xop BY n (HI)` (45_shifter.md R236, R249). -/
def execAshiftHiImm (xop : BitVec 3) (n : BitVec 8) (s : State) : Result := .next (shiftByImm .ashiftHi xop n s)

/-- `SR = SR OR ASHIFT xop BY n (HI)` (45_shifter.md R237, R249). -/
def execOrAshiftHiImm (xop : BitVec 3) (n : BitVec 8) (s : State) : Result := .next (shiftByImm .orAshiftHi xop n s)

/-- `SR = ASHIFT xop BY n (LO)` (45_shifter.md R238, R249). -/
def execAshiftLoImm (xop : BitVec 3) (n : BitVec 8) (s : State) : Result := .next (shiftByImm .ashiftLo xop n s)

/-- `SR = SR OR ASHIFT xop BY n (LO)` (45_shifter.md R239, R249). -/
def execOrAshiftLoImm (xop : BitVec 3) (n : BitVec 8) (s : State) : Result := .next (shiftByImm .orAshiftLo xop n s)

/-- A shift by an immediate with SF[3] = 1 executes as NOP (45_shifter.md R249; 30_encoding.md R112). -/
def execShiftImmReserved (s : State) : Result := .next s

end Sys2Proof.Machine
end

