-- ==== Sys2Proof/Machine/Multifunction.lean ====
section
/-!
DEFINITION. Multifunction instructions: a compute or shift part joined with a register move or memory accesses
(46_multifunction.md R260 to R269; 41_dag_memory.md R151).
-/
namespace Sys2Proof.Machine

/-- The compute part: an ALU function, a MAC function, or nothing for AMF = 0 (46_multifunction.md, before R260;
30_encoding.md R103). -/
def computePart (z : Dest) (amf : Amf) (yop : BitVec 2) (xop : BitVec 3) (c : Cpu) : Cpu :=
  match amf with
  | .alu fn => aluPart z fn yop xop c
  | .mac fn => macPart z fn yop xop c

/-- A part with a register move: the register is read before the part, written after it (46_multifunction.md R260,
R261, R267). -/
def withMove (part : Cpu → Cpu) (ddreg sdreg : BitVec 4) (s : State) : State :=
  regWrite (dregSlot ddreg) (regRead (dregSlot sdreg) s.cpu) (onCpu part s)

/-- A part with a data memory read (46_multifunction.md R260, R262, R268). -/
def withDmRead (part : Cpu → Cpu) (k m : Fin 8) (dreg : BitVec 4) (s : State) : State :=
  let r := dmReadDag k m (onCpu part s)
  regWrite (dregSlot dreg) r.1 r.2

/-- A part with a data memory write: the register is read before the part (46_multifunction.md R260, R263, R268). -/
def withDmWrite (part : Cpu → Cpu) (k m : Fin 8) (dreg : BitVec 4) (s : State) : State :=
  dmWriteDag k m (regRead (dregSlot dreg) s.cpu) (onCpu part s)

/-- A part with a program memory read (46_multifunction.md R260, R264, R269). -/
def withPmRead (part : Cpu → Cpu) (k m : Fin 8) (dreg : BitVec 4) (s : State) : State :=
  let r := pmReadDag k m (onCpu part s)
  regWrite (dregSlot dreg) r.1 r.2

/-- A part with a program memory write: the register is read before the part (46_multifunction.md R260, R265,
R269). -/
def withPmWrite (part : Cpu → Cpu) (k m : Fin 8) (dreg : BitVec 4) (s : State) : State :=
  pmWriteDag k m (regRead (dregSlot dreg) s.cpu) (onCpu part s)

/-- A part with the dual memory read, data memory first; DD names AX0, AX1, MX0, MX1 and PD names AY0, AY1, MY0, MY1
(46_multifunction.md R260, R266; 20_memory.md R93). -/
def withDualRead (part : Cpu → Cpu) (dd pd : BitVec 2) (dmi dmm pmi pmm : Fin 8) (s : State) : State :=
  let d := dmReadDag dmi dmm (onCpu part s)
  let p := pmReadDag pmi pmm d.2
  regWrite (dregSlot (4 + pd.setWidth 4)) p.1 (regWrite (dregSlot (dd.setWidth 4)) d.1 p.2)

/-- `shift, dreg = dreg` (46_multifunction.md R267). -/
def execShiftMove (sf : ShFn) (xop : BitVec 3) (ddreg sdreg : BitVec 4) (s : State) : Result :=
  .next (withMove (shiftBySe sf xop) ddreg sdreg s)

/-- `shift, dreg = PM(In, Mn)` (46_multifunction.md R269). -/
def execShiftPmRead (sf : ShFn) (xop : BitVec 3) (dreg : BitVec 4) (i m : BitVec 2) (s : State) : Result :=
  .next (withPmRead (shiftBySe sf xop) (dagSlot .dag2 i) (dagSlot .dag2 m) dreg s)

/-- `shift, PM(In, Mn) = dreg` (46_multifunction.md R269). -/
def execShiftPmWrite (sf : ShFn) (xop : BitVec 3) (dreg : BitVec 4) (i m : BitVec 2) (s : State) : Result :=
  .next (withPmWrite (shiftBySe sf xop) (dagSlot .dag2 i) (dagSlot .dag2 m) dreg s)

/-- `shift, dreg = DM(In, Mn)` (46_multifunction.md R268). -/
def execShiftDmRead (g : Gen) (sf : ShFn) (xop : BitVec 3) (dreg : BitVec 4) (i m : BitVec 2) (s : State) : Result :=
  .next (withDmRead (shiftBySe sf xop) (dagSlot g i) (dagSlot g m) dreg s)

/-- `shift, DM(In, Mn) = dreg` (46_multifunction.md R268). -/
def execShiftDmWrite (g : Gen) (sf : ShFn) (xop : BitVec 3) (dreg : BitVec 4) (i m : BitVec 2) (s : State) : Result :=
  .next (withDmWrite (shiftBySe sf xop) (dagSlot g i) (dagSlot g m) dreg s)

/-- `[compute,] dreg = dreg` (46_multifunction.md R261). -/
def execComputeMove (z : Dest) (amf : Amf) (yop : BitVec 2) (xop : BitVec 3) (ddreg sdreg : BitVec 4) (s : State) : Result :=
  .next (withMove (computePart z amf yop xop) ddreg sdreg s)

/-- `dreg = PM(In, Mn)` with an empty compute part (46_multifunction.md R264; 41_dag_memory.md R151). -/
def execPmRead (z : Dest) (yop : BitVec 2) (xop : BitVec 3) (dreg : BitVec 4) (i m : BitVec 2) (s : State) : Result :=
  .next (withPmRead (computePart z (.mac .noOp) yop xop) (dagSlot .dag2 i) (dagSlot .dag2 m) dreg s)

/-- `compute, dreg = PM(In, Mn)` with an ALU function (46_multifunction.md R264). -/
def execPmReadAlu (z : Dest) (fn : AluFn) (yop : BitVec 2) (xop : BitVec 3) (dreg : BitVec 4) (i m : BitVec 2) (s : State) : Result :=
  .next (withPmRead (computePart z (.alu fn) yop xop) (dagSlot .dag2 i) (dagSlot .dag2 m) dreg s)

/-- `compute, dreg = PM(In, Mn)` with a MAC function 8 to 15 (46_multifunction.md R264). -/
def execPmReadMac8to15 (z : Dest) (fn : MacFn) (yop : BitVec 2) (xop : BitVec 3) (dreg : BitVec 4) (i m : BitVec 2) (s : State) : Result :=
  .next (withPmRead (computePart z (.mac fn) yop xop) (dagSlot .dag2 i) (dagSlot .dag2 m) dreg s)

/-- `compute, dreg = PM(In, Mn)` with a MAC function 4 to 7 (46_multifunction.md R264). -/
def execPmReadMac4to7 (z : Dest) (fn : MacFn) (yop : BitVec 2) (xop : BitVec 3) (dreg : BitVec 4) (i m : BitVec 2) (s : State) : Result :=
  .next (withPmRead (computePart z (.mac fn) yop xop) (dagSlot .dag2 i) (dagSlot .dag2 m) dreg s)

/-- `compute, dreg = PM(In, Mn)` with a MAC function 2 or 3 (46_multifunction.md R264). -/
def execPmReadMac2to3 (z : Dest) (fn : MacFn) (yop : BitVec 2) (xop : BitVec 3) (dreg : BitVec 4) (i m : BitVec 2) (s : State) : Result :=
  .next (withPmRead (computePart z (.mac fn) yop xop) (dagSlot .dag2 i) (dagSlot .dag2 m) dreg s)

/-- `compute, dreg = PM(In, Mn)` with a MAC function 1 (46_multifunction.md R264). -/
def execPmReadMac1 (z : Dest) (yop : BitVec 2) (xop : BitVec 3) (dreg : BitVec 4) (i m : BitVec 2) (s : State) : Result :=
  .next (withPmRead (computePart z (.mac .mulRnd) yop xop) (dagSlot .dag2 i) (dagSlot .dag2 m) dreg s)

/-- `PM(In, Mn) = dreg` with an empty compute part (46_multifunction.md R265; 41_dag_memory.md R151). -/
def execPmWrite (z : Dest) (yop : BitVec 2) (xop : BitVec 3) (dreg : BitVec 4) (i m : BitVec 2) (s : State) : Result :=
  .next (withPmWrite (computePart z (.mac .noOp) yop xop) (dagSlot .dag2 i) (dagSlot .dag2 m) dreg s)

/-- `compute, PM(In, Mn) = dreg` with an ALU function (46_multifunction.md R265). -/
def execPmWriteAlu (z : Dest) (fn : AluFn) (yop : BitVec 2) (xop : BitVec 3) (dreg : BitVec 4) (i m : BitVec 2) (s : State) : Result :=
  .next (withPmWrite (computePart z (.alu fn) yop xop) (dagSlot .dag2 i) (dagSlot .dag2 m) dreg s)

/-- `compute, PM(In, Mn) = dreg` with a MAC function 8 to 15 (46_multifunction.md R265). -/
def execPmWriteMac8to15 (z : Dest) (fn : MacFn) (yop : BitVec 2) (xop : BitVec 3) (dreg : BitVec 4) (i m : BitVec 2) (s : State) : Result :=
  .next (withPmWrite (computePart z (.mac fn) yop xop) (dagSlot .dag2 i) (dagSlot .dag2 m) dreg s)

/-- `compute, PM(In, Mn) = dreg` with a MAC function 4 to 7 (46_multifunction.md R265). -/
def execPmWriteMac4to7 (z : Dest) (fn : MacFn) (yop : BitVec 2) (xop : BitVec 3) (dreg : BitVec 4) (i m : BitVec 2) (s : State) : Result :=
  .next (withPmWrite (computePart z (.mac fn) yop xop) (dagSlot .dag2 i) (dagSlot .dag2 m) dreg s)

/-- `compute, PM(In, Mn) = dreg` with a MAC function 2 or 3 (46_multifunction.md R265). -/
def execPmWriteMac2to3 (z : Dest) (fn : MacFn) (yop : BitVec 2) (xop : BitVec 3) (dreg : BitVec 4) (i m : BitVec 2) (s : State) : Result :=
  .next (withPmWrite (computePart z (.mac fn) yop xop) (dagSlot .dag2 i) (dagSlot .dag2 m) dreg s)

/-- `compute, PM(In, Mn) = dreg` with a MAC function 1 (46_multifunction.md R265). -/
def execPmWriteMac1 (z : Dest) (yop : BitVec 2) (xop : BitVec 3) (dreg : BitVec 4) (i m : BitVec 2) (s : State) : Result :=
  .next (withPmWrite (computePart z (.mac .mulRnd) yop xop) (dagSlot .dag2 i) (dagSlot .dag2 m) dreg s)

/-- `dreg = DM(In, Mn)` with an empty compute part (46_multifunction.md R262; 41_dag_memory.md R151). -/
def execDmRead (g : Gen) (z : Dest) (yop : BitVec 2) (xop : BitVec 3) (dreg : BitVec 4) (i m : BitVec 2) (s : State) : Result :=
  .next (withDmRead (computePart z (.mac .noOp) yop xop) (dagSlot g i) (dagSlot g m) dreg s)

/-- `compute, dreg = DM(In, Mn)` with an ALU function (46_multifunction.md R262). -/
def execDmReadAlu (g : Gen) (z : Dest) (fn : AluFn) (yop : BitVec 2) (xop : BitVec 3) (dreg : BitVec 4) (i m : BitVec 2) (s : State) : Result :=
  .next (withDmRead (computePart z (.alu fn) yop xop) (dagSlot g i) (dagSlot g m) dreg s)

/-- `compute, dreg = DM(In, Mn)` with a MAC function 8 to 15 (46_multifunction.md R262). -/
def execDmReadMac8to15 (g : Gen) (z : Dest) (fn : MacFn) (yop : BitVec 2) (xop : BitVec 3) (dreg : BitVec 4) (i m : BitVec 2) (s : State) : Result :=
  .next (withDmRead (computePart z (.mac fn) yop xop) (dagSlot g i) (dagSlot g m) dreg s)

/-- `compute, dreg = DM(In, Mn)` with a MAC function 4 to 7 (46_multifunction.md R262). -/
def execDmReadMac4to7 (g : Gen) (z : Dest) (fn : MacFn) (yop : BitVec 2) (xop : BitVec 3) (dreg : BitVec 4) (i m : BitVec 2) (s : State) : Result :=
  .next (withDmRead (computePart z (.mac fn) yop xop) (dagSlot g i) (dagSlot g m) dreg s)

/-- `compute, dreg = DM(In, Mn)` with a MAC function 2 or 3 (46_multifunction.md R262). -/
def execDmReadMac2to3 (g : Gen) (z : Dest) (fn : MacFn) (yop : BitVec 2) (xop : BitVec 3) (dreg : BitVec 4) (i m : BitVec 2) (s : State) : Result :=
  .next (withDmRead (computePart z (.mac fn) yop xop) (dagSlot g i) (dagSlot g m) dreg s)

/-- `compute, dreg = DM(In, Mn)` with a MAC function 1 (46_multifunction.md R262). -/
def execDmReadMac1 (g : Gen) (z : Dest) (yop : BitVec 2) (xop : BitVec 3) (dreg : BitVec 4) (i m : BitVec 2) (s : State) : Result :=
  .next (withDmRead (computePart z (.mac .mulRnd) yop xop) (dagSlot g i) (dagSlot g m) dreg s)

/-- `DM(In, Mn) = dreg` with an empty compute part (46_multifunction.md R263; 41_dag_memory.md R151). -/
def execDmWrite (g : Gen) (z : Dest) (yop : BitVec 2) (xop : BitVec 3) (dreg : BitVec 4) (i m : BitVec 2) (s : State) : Result :=
  .next (withDmWrite (computePart z (.mac .noOp) yop xop) (dagSlot g i) (dagSlot g m) dreg s)

/-- `compute, DM(In, Mn) = dreg` with an ALU function (46_multifunction.md R263). -/
def execDmWriteAlu (g : Gen) (z : Dest) (fn : AluFn) (yop : BitVec 2) (xop : BitVec 3) (dreg : BitVec 4) (i m : BitVec 2) (s : State) : Result :=
  .next (withDmWrite (computePart z (.alu fn) yop xop) (dagSlot g i) (dagSlot g m) dreg s)

/-- `compute, DM(In, Mn) = dreg` with a MAC function 8 to 15 (46_multifunction.md R263). -/
def execDmWriteMac8to15 (g : Gen) (z : Dest) (fn : MacFn) (yop : BitVec 2) (xop : BitVec 3) (dreg : BitVec 4) (i m : BitVec 2) (s : State) : Result :=
  .next (withDmWrite (computePart z (.mac fn) yop xop) (dagSlot g i) (dagSlot g m) dreg s)

/-- `compute, DM(In, Mn) = dreg` with a MAC function 4 to 7 (46_multifunction.md R263). -/
def execDmWriteMac4to7 (g : Gen) (z : Dest) (fn : MacFn) (yop : BitVec 2) (xop : BitVec 3) (dreg : BitVec 4) (i m : BitVec 2) (s : State) : Result :=
  .next (withDmWrite (computePart z (.mac fn) yop xop) (dagSlot g i) (dagSlot g m) dreg s)

/-- `compute, DM(In, Mn) = dreg` with a MAC function 2 or 3 (46_multifunction.md R263). -/
def execDmWriteMac2to3 (g : Gen) (z : Dest) (fn : MacFn) (yop : BitVec 2) (xop : BitVec 3) (dreg : BitVec 4) (i m : BitVec 2) (s : State) : Result :=
  .next (withDmWrite (computePart z (.mac fn) yop xop) (dagSlot g i) (dagSlot g m) dreg s)

/-- `compute, DM(In, Mn) = dreg` with a MAC function 1 (46_multifunction.md R263). -/
def execDmWriteMac1 (g : Gen) (z : Dest) (yop : BitVec 2) (xop : BitVec 3) (dreg : BitVec 4) (i m : BitVec 2) (s : State) : Result :=
  .next (withDmWrite (computePart z (.mac .mulRnd) yop xop) (dagSlot g i) (dagSlot g m) dreg s)

/-- `[compute,] xreg = DM(In, Mn), yreg = PM(In, Mn)` (46_multifunction.md R266). -/
def execDualRead (pd dd : BitVec 2) (amf : Amf) (yop : BitVec 2) (xop : BitVec 3) (pmi pmm dmi dmm : BitVec 2) (s : State) : Result :=
  .next (withDualRead (computePart .primary amf yop xop) dd pd (dagSlot .dag1 dmi) (dagSlot .dag1 dmm) (dagSlot .dag2 pmi)
    (dagSlot .dag2 pmm) s)

end Sys2Proof.Machine
end

