-- ==== Sys2Proof/Machine/StackControl.lean ====
section
/-!
DEFINITION. The stack control instruction (42_stack_control.md R160).
-/
namespace Sys2Proof.Machine

/-- An action done only when its field asks for it. -/
def onlyIf (b : Bool) (act : State → State) (s : State) : State := if b then act s else s

/-- The status stack action of SPP: bit 1 asks for one, bit 0 chooses the pop (42_stack_control.md R160). -/
def statusStackAction (spp : BitVec 2) (s : State) : State :=
  if spp.getLsbD 1 then if spp.getLsbD 0 then statPop s else onCpu Cpu.statPush s else s

/-- `PUSH STS` / `POP STS` / `POP CNTR` / `POP PC` / `POP LOOP`, in the order PC, loop, counter, status stack; a PC
popped is dropped (42_stack_control.md R160). -/
def execStackControl (pp lp cp : Bool) (spp : BitVec 2) (s : State) : Result :=
  .next (statusStackAction spp (onlyIf cp (onCpu Cpu.cntrPop) (onlyIf lp (onCpu Cpu.loopPop) (onlyIf pp (onCpu Cpu.pcPop) s))))

end Sys2Proof.Machine
end

