-- ==== Sys2Proof/Machine/Dispatch.lean ====
section
/-!
DEFINITION. The dispatch: one arm per constructor of Instr, one direct call of its meaning (30_encoding.md R111).
-/
namespace Sys2Proof.Machine

/-- `Execute(op)` on the decoded instruction: total, for every instruction has its meaning (47_program_flow.md R280). -/
def exec (i : Instr) (s : State) : Host.Outcome State Fault Refusal :=
  match i with
  | .nop => Sys2Proof.Machine.execNop s
  | .reserved01 => Sys2Proof.Machine.execReserved01 s
  | .reserved02 => Sys2Proof.Machine.execReserved02 s
  | .reserved03 => Sys2Proof.Machine.execReserved03 s
  | .reserved08 => Sys2Proof.Machine.execReserved08 s
  | .stackControl pp lp cp spp => Sys2Proof.Machine.execStackControl pp lp cp spp s
  | .satMr => Sys2Proof.Machine.execSatMr s
  | .divs yop xop => Sys2Proof.Machine.execDivs yop xop s
  | .divq xop => Sys2Proof.Machine.execDivq xop s
  | .modify g idx m => Sys2Proof.Machine.execModify g idx m s
  | .rts cond => Sys2Proof.Machine.execRts cond s
  | .rti cond => Sys2Proof.Machine.execRti cond s
  | .jumpInd idx cond => Sys2Proof.Machine.execJumpInd idx cond s
  | .callInd idx cond => Sys2Proof.Machine.execCallInd idx cond s
  | .modeControl ti mm sat ol br sr gm => Sys2Proof.Machine.execModeControl ti mm sat ol br sr gm s
  | .moveReg dst src => Sys2Proof.Machine.execMoveReg dst src s
  | .lshiftHi xop cond => Sys2Proof.Machine.execLshiftHi xop cond s
  | .orLshiftHi xop cond => Sys2Proof.Machine.execOrLshiftHi xop cond s
  | .lshiftLo xop cond => Sys2Proof.Machine.execLshiftLo xop cond s
  | .orLshiftLo xop cond => Sys2Proof.Machine.execOrLshiftLo xop cond s
  | .ashiftHi xop cond => Sys2Proof.Machine.execAshiftHi xop cond s
  | .orAshiftHi xop cond => Sys2Proof.Machine.execOrAshiftHi xop cond s
  | .ashiftLo xop cond => Sys2Proof.Machine.execAshiftLo xop cond s
  | .orAshiftLo xop cond => Sys2Proof.Machine.execOrAshiftLo xop cond s
  | .normHi xop cond => Sys2Proof.Machine.execNormHi xop cond s
  | .orNormHi xop cond => Sys2Proof.Machine.execOrNormHi xop cond s
  | .normLo xop cond => Sys2Proof.Machine.execNormLo xop cond s
  | .orNormLo xop cond => Sys2Proof.Machine.execOrNormLo xop cond s
  | .expHi xop cond => Sys2Proof.Machine.execExpHi xop cond s
  | .expHix xop cond => Sys2Proof.Machine.execExpHix xop cond s
  | .expLo xop cond => Sys2Proof.Machine.execExpLo xop cond s
  | .expAdj xop cond => Sys2Proof.Machine.execExpAdj xop cond s
  | .lshiftHiImm xop n => Sys2Proof.Machine.execLshiftHiImm xop n s
  | .orLshiftHiImm xop n => Sys2Proof.Machine.execOrLshiftHiImm xop n s
  | .lshiftLoImm xop n => Sys2Proof.Machine.execLshiftLoImm xop n s
  | .orLshiftLoImm xop n => Sys2Proof.Machine.execOrLshiftLoImm xop n s
  | .ashiftHiImm xop n => Sys2Proof.Machine.execAshiftHiImm xop n s
  | .orAshiftHiImm xop n => Sys2Proof.Machine.execOrAshiftHiImm xop n s
  | .ashiftLoImm xop n => Sys2Proof.Machine.execAshiftLoImm xop n s
  | .orAshiftLoImm xop n => Sys2Proof.Machine.execOrAshiftLoImm xop n s
  | .shiftImmReserved => Sys2Proof.Machine.execShiftImmReserved s
  | .shiftMove sf xop ddreg sdreg => Sys2Proof.Machine.execShiftMove sf xop ddreg sdreg s
  | .shiftPmRead sf xop dreg idx m => Sys2Proof.Machine.execShiftPmRead sf xop dreg idx m s
  | .shiftPmWrite sf xop dreg idx m => Sys2Proof.Machine.execShiftPmWrite sf xop dreg idx m s
  | .shiftDmRead g sf xop dreg idx m => Sys2Proof.Machine.execShiftDmRead g sf xop dreg idx m s
  | .shiftDmWrite g sf xop dreg idx m => Sys2Proof.Machine.execShiftDmWrite g sf xop dreg idx m s
  | .doUntil addr term => Sys2Proof.Machine.execDoUntil addr term s
  | .jump addr cond => Sys2Proof.Machine.execJump addr cond s
  | .call addr cond => Sys2Proof.Machine.execCall addr cond s
  | .condNoCompute z yop xop cond => Sys2Proof.Machine.execCondNoCompute z yop xop cond s
  | .mrMulRnd yop xop cond => Sys2Proof.Machine.execMrMulRnd yop xop cond s
  | .mfMulRnd yop xop cond => Sys2Proof.Machine.execMfMulRnd yop xop cond s
  | .mrAddRnd yop xop cond => Sys2Proof.Machine.execMrAddRnd yop xop cond s
  | .mfAddRnd yop xop cond => Sys2Proof.Machine.execMfAddRnd yop xop cond s
  | .mrSubRnd yop xop cond => Sys2Proof.Machine.execMrSubRnd yop xop cond s
  | .mfSubRnd yop xop cond => Sys2Proof.Machine.execMfSubRnd yop xop cond s
  | .mrMulSS yop xop cond => Sys2Proof.Machine.execMrMulSS yop xop cond s
  | .mfMulSS yop xop cond => Sys2Proof.Machine.execMfMulSS yop xop cond s
  | .mrMulSU yop xop cond => Sys2Proof.Machine.execMrMulSU yop xop cond s
  | .mfMulSU yop xop cond => Sys2Proof.Machine.execMfMulSU yop xop cond s
  | .mrMulUS yop xop cond => Sys2Proof.Machine.execMrMulUS yop xop cond s
  | .mfMulUS yop xop cond => Sys2Proof.Machine.execMfMulUS yop xop cond s
  | .mrMulUU yop xop cond => Sys2Proof.Machine.execMrMulUU yop xop cond s
  | .mfMulUU yop xop cond => Sys2Proof.Machine.execMfMulUU yop xop cond s
  | .mrAddSS yop xop cond => Sys2Proof.Machine.execMrAddSS yop xop cond s
  | .mfAddSS yop xop cond => Sys2Proof.Machine.execMfAddSS yop xop cond s
  | .mrAddSU yop xop cond => Sys2Proof.Machine.execMrAddSU yop xop cond s
  | .mfAddSU yop xop cond => Sys2Proof.Machine.execMfAddSU yop xop cond s
  | .mrAddUS yop xop cond => Sys2Proof.Machine.execMrAddUS yop xop cond s
  | .mfAddUS yop xop cond => Sys2Proof.Machine.execMfAddUS yop xop cond s
  | .mrAddUU yop xop cond => Sys2Proof.Machine.execMrAddUU yop xop cond s
  | .mfAddUU yop xop cond => Sys2Proof.Machine.execMfAddUU yop xop cond s
  | .mrSubSS yop xop cond => Sys2Proof.Machine.execMrSubSS yop xop cond s
  | .mfSubSS yop xop cond => Sys2Proof.Machine.execMfSubSS yop xop cond s
  | .mrSubSU yop xop cond => Sys2Proof.Machine.execMrSubSU yop xop cond s
  | .mfSubSU yop xop cond => Sys2Proof.Machine.execMfSubSU yop xop cond s
  | .mrSubUS yop xop cond => Sys2Proof.Machine.execMrSubUS yop xop cond s
  | .mfSubUS yop xop cond => Sys2Proof.Machine.execMfSubUS yop xop cond s
  | .mrSubUU yop xop cond => Sys2Proof.Machine.execMrSubUU yop xop cond s
  | .mfSubUU yop xop cond => Sys2Proof.Machine.execMfSubUU yop xop cond s
  | .arPassY yop xop cond => Sys2Proof.Machine.execArPassY yop xop cond s
  | .afPassY yop xop cond => Sys2Proof.Machine.execAfPassY yop xop cond s
  | .arIncY yop xop cond => Sys2Proof.Machine.execArIncY yop xop cond s
  | .afIncY yop xop cond => Sys2Proof.Machine.execAfIncY yop xop cond s
  | .arAddC yop xop cond => Sys2Proof.Machine.execArAddC yop xop cond s
  | .afAddC yop xop cond => Sys2Proof.Machine.execAfAddC yop xop cond s
  | .arAdd yop xop cond => Sys2Proof.Machine.execArAdd yop xop cond s
  | .afAdd yop xop cond => Sys2Proof.Machine.execAfAdd yop xop cond s
  | .arNotY yop xop cond => Sys2Proof.Machine.execArNotY yop xop cond s
  | .afNotY yop xop cond => Sys2Proof.Machine.execAfNotY yop xop cond s
  | .arNegY yop xop cond => Sys2Proof.Machine.execArNegY yop xop cond s
  | .afNegY yop xop cond => Sys2Proof.Machine.execAfNegY yop xop cond s
  | .arSubC yop xop cond => Sys2Proof.Machine.execArSubC yop xop cond s
  | .afSubC yop xop cond => Sys2Proof.Machine.execAfSubC yop xop cond s
  | .arSub yop xop cond => Sys2Proof.Machine.execArSub yop xop cond s
  | .afSub yop xop cond => Sys2Proof.Machine.execAfSub yop xop cond s
  | .arDecY yop xop cond => Sys2Proof.Machine.execArDecY yop xop cond s
  | .afDecY yop xop cond => Sys2Proof.Machine.execAfDecY yop xop cond s
  | .arRsub yop xop cond => Sys2Proof.Machine.execArRsub yop xop cond s
  | .afRsub yop xop cond => Sys2Proof.Machine.execAfRsub yop xop cond s
  | .arRsubC yop xop cond => Sys2Proof.Machine.execArRsubC yop xop cond s
  | .afRsubC yop xop cond => Sys2Proof.Machine.execAfRsubC yop xop cond s
  | .arNotX yop xop cond => Sys2Proof.Machine.execArNotX yop xop cond s
  | .afNotX yop xop cond => Sys2Proof.Machine.execAfNotX yop xop cond s
  | .arAnd yop xop cond => Sys2Proof.Machine.execArAnd yop xop cond s
  | .afAnd yop xop cond => Sys2Proof.Machine.execAfAnd yop xop cond s
  | .arOr yop xop cond => Sys2Proof.Machine.execArOr yop xop cond s
  | .afOr yop xop cond => Sys2Proof.Machine.execAfOr yop xop cond s
  | .arXor yop xop cond => Sys2Proof.Machine.execArXor yop xop cond s
  | .afXor yop xop cond => Sys2Proof.Machine.execAfXor yop xop cond s
  | .arAbsX yop xop cond => Sys2Proof.Machine.execArAbsX yop xop cond s
  | .afAbsX yop xop cond => Sys2Proof.Machine.execAfAbsX yop xop cond s
  | .computeMove z amf yop xop ddreg sdreg => Sys2Proof.Machine.execComputeMove z amf yop xop ddreg sdreg s
  | .loadImm14 dst data => Sys2Proof.Machine.execLoadImm14 dst data s
  | .loadImm16 data dreg => Sys2Proof.Machine.execLoadImm16 data dreg s
  | .pmRead z yop xop dreg idx m => Sys2Proof.Machine.execPmRead z yop xop dreg idx m s
  | .pmReadAlu z fn yop xop dreg idx m => Sys2Proof.Machine.execPmReadAlu z fn yop xop dreg idx m s
  | .pmReadMac8to15 z fn yop xop dreg idx m => Sys2Proof.Machine.execPmReadMac8to15 z fn yop xop dreg idx m s
  | .pmReadMac4to7 z fn yop xop dreg idx m => Sys2Proof.Machine.execPmReadMac4to7 z fn yop xop dreg idx m s
  | .pmReadMac2to3 z fn yop xop dreg idx m => Sys2Proof.Machine.execPmReadMac2to3 z fn yop xop dreg idx m s
  | .pmReadMac1 z yop xop dreg idx m => Sys2Proof.Machine.execPmReadMac1 z yop xop dreg idx m s
  | .pmWrite z yop xop dreg idx m => Sys2Proof.Machine.execPmWrite z yop xop dreg idx m s
  | .pmWriteAlu z fn yop xop dreg idx m => Sys2Proof.Machine.execPmWriteAlu z fn yop xop dreg idx m s
  | .pmWriteMac8to15 z fn yop xop dreg idx m => Sys2Proof.Machine.execPmWriteMac8to15 z fn yop xop dreg idx m s
  | .pmWriteMac4to7 z fn yop xop dreg idx m => Sys2Proof.Machine.execPmWriteMac4to7 z fn yop xop dreg idx m s
  | .pmWriteMac2to3 z fn yop xop dreg idx m => Sys2Proof.Machine.execPmWriteMac2to3 z fn yop xop dreg idx m s
  | .pmWriteMac1 z yop xop dreg idx m => Sys2Proof.Machine.execPmWriteMac1 z yop xop dreg idx m s
  | .dmRead g z yop xop dreg idx m => Sys2Proof.Machine.execDmRead g z yop xop dreg idx m s
  | .dmReadAlu g z fn yop xop dreg idx m => Sys2Proof.Machine.execDmReadAlu g z fn yop xop dreg idx m s
  | .dmReadMac8to15 g z fn yop xop dreg idx m => Sys2Proof.Machine.execDmReadMac8to15 g z fn yop xop dreg idx m s
  | .dmReadMac4to7 g z fn yop xop dreg idx m => Sys2Proof.Machine.execDmReadMac4to7 g z fn yop xop dreg idx m s
  | .dmReadMac2to3 g z fn yop xop dreg idx m => Sys2Proof.Machine.execDmReadMac2to3 g z fn yop xop dreg idx m s
  | .dmReadMac1 g z yop xop dreg idx m => Sys2Proof.Machine.execDmReadMac1 g z yop xop dreg idx m s
  | .dmWrite g z yop xop dreg idx m => Sys2Proof.Machine.execDmWrite g z yop xop dreg idx m s
  | .dmWriteAlu g z fn yop xop dreg idx m => Sys2Proof.Machine.execDmWriteAlu g z fn yop xop dreg idx m s
  | .dmWriteMac8to15 g z fn yop xop dreg idx m => Sys2Proof.Machine.execDmWriteMac8to15 g z fn yop xop dreg idx m s
  | .dmWriteMac4to7 g z fn yop xop dreg idx m => Sys2Proof.Machine.execDmWriteMac4to7 g z fn yop xop dreg idx m s
  | .dmWriteMac2to3 g z fn yop xop dreg idx m => Sys2Proof.Machine.execDmWriteMac2to3 g z fn yop xop dreg idx m s
  | .dmWriteMac1 g z yop xop dreg idx m => Sys2Proof.Machine.execDmWriteMac1 g z yop xop dreg idx m s
  | .loadDirect dst addr => Sys2Proof.Machine.execLoadDirect dst addr s
  | .storeDirect addr src => Sys2Proof.Machine.execStoreDirect addr src s
  | .storeImm g data idx m => Sys2Proof.Machine.execStoreImm g data idx m s
  | .dualRead pd dd amf yop xop pmi pmm dmi dmm => Sys2Proof.Machine.execDualRead pd dd amf yop xop pmi pmm dmi dmm s

end Sys2Proof.Machine
end

