-- ==== Sys2Proof/Machine/Sequencer.lean ====
section
/-!
DEFINITION. The parts of a step around the instruction: the fetch, the loop test that chooses the next PC, and the
interrupt evaluation that follows (47_program_flow.md R280, R292; 60_exceptions.md R316).
-/
namespace Sys2Proof.Machine

/-- The fetch: the whole 24-bit word at PM:PC, with the model's own fields of the step begun afresh
(47_program_flow.md R280; 20_memory.md R93; log 5). -/
def fetchWord (s : State) : PWord × State :=
  (s.pm.pmWord s.cpu.pc, { s with bus := [.fetch s.cpu.pc], acks := [], evalReq := false })

/-- The open loop, when the instruction at `a` is its last one (47_program_flow.md R280). -/
def Cpu.loopEndsAt (a : Addr) (c : Cpu) : Option LoopEntry := c.openLoop.filter fun e => e.endAddr == a

/-- PC for the instruction after the one at `a`, chosen before that one executes: the loop start while the open loop
that ends at `a` goes on; `a + 1` in 14 bits else, with the loop closed when it ends here
(47_program_flow.md R280, R292; 10_state.md R25). -/
def Cpu.advance (a : Addr) (c : Cpu) : Cpu :=
  match c.loopEndsAt a with
  | some e =>
    let r := evalCond e.term c
    if r.1 then { r.2 with pc := r.2.pcTop } else { r.2.loopPop.pcPop with pc := a + 1 }
  | none => { c with pc := a + 1 }

/-- The state the instruction executes in (47_program_flow.md R280). -/
def enterInstr (s : State) : State := onCpu (Cpu.advance s.cpu.pc) (fetchWord s).2

/-- The end of a step: interrupts are evaluated when the instruction asked for it (47_program_flow.md R280;
60_exceptions.md R316). -/
def retire (s : State) : State := if s.evalReq then evaluateInterrupts { s with evalReq := false } else s

end Sys2Proof.Machine
end

