-- ==== Sys2Proof/Machine/Step.lean ====
section
/-!
DEFINITION. The step: fetch, the loop test, the instruction, the interrupt evaluation (47_program_flow.md R280).
-/
namespace Sys2Proof.Machine

/-- `Step()`: one instruction (47_program_flow.md R280). -/
def step (s : State) : Host.Outcome State Fault Refusal :=
  match exec (decode (fetchWord s).1) (enterInstr s) with
  | .next t => .next (retire t)
  | .fault f => .fault f
  | .refused r => .refused r

/-- `s` with the instruction of bits `w` at PM:PC, where the step fetches; nothing else changes (log 6). -/
def State.withFetchWord (s : State) (nbits w : Nat) : State :=
  { s with pm := s.pm.setPmWord s.cpu.pc (BitVec.ofNat 24 (w % 2 ^ nbits)) }

end Sys2Proof.Machine
end

