-- ==== Sys2Proof/Machine/HostAccess.lean ====
section
/-!
DEFINITION. The host's operations between steps: interrupt lines and the acknowledge callback
(60_exceptions.md R312, R313, R321), reset (70_reset_and_hazards.md R340), register access (R350), snapshots (R351) and the loading of a memory (20_memory.md R89).
The interface fixes one step function, so these are operations beside it (log 8).
-/
namespace Sys2Proof.Machine

/-- The state a host call begins with: the model's own outputs of the call before are cleared (log 5). -/
def beginHostCall (s : State) : State := { s with bus := [], acks := [], evalReq := false }

/-- The line and the latch of line `n` after the host drives it to `asserted`: a rising edge sets the latch
(60_exceptions.md R313). -/
def Cpu.driveLine (n : Fin Config.numIrq) (asserted : Bool) (c : Cpu) : Cpu :=
  { c with
    irqLatch := if asserted && !c.irqLine.getLsbD n then setBit c.irqLatch n true else c.irqLatch
    irqLine := setBit c.irqLine n asserted }

/-- `assert_irq_line(n, s)`: an asserted line is an evaluation point; a line outside 0 to 3 does nothing
(60_exceptions.md R312, R313, R316). -/
def assertIrqLine (n : Nat) (asserted : Bool) (s : State) : State :=
  if h : n < Config.numIrq then
    let s := onCpu (Cpu.driveLine ⟨n, h⟩ asserted) (beginHostCall s)
    if asserted then evaluateInterrupts s else s
  else beginHostCall s

/-- `set_irq_vector_callback(fn)`: from here on a callback is registered, or with `registered` false none is
(60_exceptions.md R321; log 10). -/
def setIrqVectorCallback (registered : Bool) (s : State) : State :=
  { beginHostCall s with irqCallback := registered }

/-- The slot of a host register access; none when the group or the index is out of range, which is treated as an invalid
slot (70_reset_and_hazards.md R350). -/
def hostSlot (group index : Nat) : Option Slot :=
  if group < 4 ∧ index < 16 then some ⟨BitVec.ofNat 2 group, BitVec.ofNat 4 index⟩ else none

/-- `read_register(group, index)`: no side effect (70_reset_and_hazards.md R350). -/
def readRegister (group index : Nat) (s : State) : Word :=
  match hostSlot group index with
  | some slot => regRead slot s.cpu
  | none => 0

/-- `write_register(group, index, word)`: the effects of the same write by an instruction, with the interrupt evaluation
after IMASK and ICNTL (70_reset_and_hazards.md R350; 60_exceptions.md R316). -/
def writeRegister (group index : Nat) (v : Word) (s : State) : State :=
  match hostSlot group index with
  | some slot => retire (regWrite slot v (beginHostCall s))
  | none => beginHostCall s

/-- The Machine State after `Reset()` of any Machine State: what R58 gives no value stays as it was
(70_reset_and_hazards.md R340). -/
def Cpu.hostReset (c : Cpu) : Cpu :=
  let c := { c with
    pc := Config.resetPc, astat := 0x00, sstat := Config.resetSstat, imask := 0, icntl := 0, irqLatch := 0
    pcStk := { c.pcStk with sp := 0 }, cntrStk := { c.cntrStk with sp := 0 }
    statStk := { c.statStk with sp := 0 }, loopStk := { c.loopStk with sp := 0 }
    base := Vector.ofFn fun k => c.i[k] &&& lmask c.l[k] }
  c.setMstat 0

/-- `Reset()`: no memory access, no callback, no evaluation (70_reset_and_hazards.md R340). -/
def hostReset (s : State) : State := onCpu Cpu.hostReset (beginHostCall s)

/-- `get_state()`: the whole Machine State (70_reset_and_hazards.md R351). -/
def getState (s : State) : Cpu := s.cpu

/-- The EMPTY bits of SSTAT agree with the stack pointers (10_state.md R48). -/
def Cpu.emptyBitsAgree (c : Cpu) : Bool :=
  c.sstat.getLsbD 0 == c.pcStk.isEmpty && c.sstat.getLsbD 2 == c.cntrStk.isEmpty &&
    c.sstat.getLsbD 4 == c.statStk.isEmpty && c.sstat.getLsbD 6 == c.loopStk.isEmpty

/-- `set_state(c)`: the whole Machine State replaced, with no side effect; a snapshot whose EMPTY bits disagree with its
pointers has no behaviour in the spec and is refused (70_reset_and_hazards.md R351; 93_implementation_defined.md U15;
log 13). DESIGN CHOICE: every other snapshot is taken as it is, also one whose BASE[k] + L[k] exceeds 2^14, which no run
reaches (41_dag_memory.md R143; log 17). -/
def setState (c : Cpu) (s : State) : Result :=
  if c.emptyBitsAgree then .next { beginHostCall s with cpu := c } else .refused .snapshotBreaksInvariant

/-- The host stores a word of data memory: the memory is the environment's (20_memory.md R82, R89). -/
def hostStoreDm (a : Addr) (v : Word) (s : State) : State := { beginHostCall s with dm := s.dm.setDmWord a v }

/-- The host stores a word of program memory, which is how a program is loaded (20_memory.md R81, R89; log 6). -/
def hostStorePm (a : Addr) (v : PWord) (s : State) : State := { beginHostCall s with pm := s.pm.setPmWord a v }

end Sys2Proof.Machine
end

