-- ==== Sys2Proof/Machine/Run.lean ====
section
/-!
DEFINITION. Running for a budget of cycles (70_reset_and_hazards.md R343, R344).
-/
namespace Sys2Proof.Machine

/-- `n` steps; a stop, which no instruction makes, would end the run. -/
def stepN : Nat → State → Result
  | 0, s => .next s
  | n + 1, s =>
    match step s with
    | .next t => stepN n t
    | .fault f => .fault f
    | .refused r => .refused r

/-- The steps of a run: one as long as budget remains, each costing CYCLES = 1; none for a budget of 0 or less
(70_reset_and_hazards.md R343, R344). -/
def stepsOfBudget (budget : Int) : Nat :=
  ((budget + Config.cyclesPerInstr - 1) / Config.cyclesPerInstr).toNat

/-- `execute(cycle_budget)`: the state after the run and the cycles consumed (70_reset_and_hazards.md R343). -/
def execute (budget : Int) (s : State) : Result × Int :=
  (stepN (stepsOfBudget budget) s, (stepsOfBudget budget : Int) * Config.cyclesPerInstr)

end Sys2Proof.Machine
end

