-- ==== Sys2Proof/Safety.lean ====
section
/-!
DEFINITION. The terms the statements are written in: a sound state, what an instruction leaves as it was, and the effect of
each kind of instruction in integers and single bits, as the rules of spec/ put it and not as the machine computes it.
-/
namespace Sys2Proof.Machine

/-- Both memories are in canonical form (log 2, log 3), the EMPTY bits of SSTAT tell the empty stacks (10_state.md R48),
and no interrupt evaluation is left over (60_exceptions.md R316). That a stack pointer stays within its capacity
(R41) is in the type of the pointer. -/
structure State.Inv (s : State) : Prop where
  dmForm : s.dm.wf dmBytes = true
  pmForm : s.pm.wf pmBytes = true
  emptyBits : s.cpu.emptyBitsAgree = true
  evaluated : s.evalReq = false

/-- The bank that is not live (10_state.md R22). -/
def Cpu.shadow (c : Cpu) : Bank := if c.mstat.getLsbD 0 then c.bank0 else c.bank1

/-- Outside the Machine State nothing changed: every byte of both memories reads as before, no access was made, no
acknowledge was given, the host's registration stands, no interrupt evaluation was asked for. -/
structure OnlyCpu (s t : State) : Prop where
  dmByte : ∀ k, t.dm.readByte k = s.dm.readByte k
  pmByte : ∀ k, t.pm.readByte k = s.pm.readByte k
  bus : t.bus = s.bus
  acks : t.acks = s.acks
  irqCallback : t.irqCallback = s.irqCallback
  evalReq : t.evalReq = s.evalReq

/-- Every byte of data memory reads as before, except the two bytes of the word at `a`, where the word `v` stands. -/
structure DmStored (a : Addr) (v : Word) (s t : State) : Prop where
  stored : t.dm.dmWord a = v
  others : ∀ k, k ≠ dmKey a → k ≠ dmKey a + 1 → t.dm.readByte k = s.dm.readByte k

/-- Every byte of program memory reads as before, except the three bytes of the word at `a`, where the word `v` stands. -/
structure PmStored (a : Addr) (v : PWord) (s t : State) : Prop where
  stored : t.pm.pmWord a = v
  others : ∀ k, k ≠ pmKey a → k ≠ pmKey a + 1 → k ≠ pmKey a + 2 → t.pm.readByte k = s.pm.readByte k

/-- Every byte of data memory reads as before. -/
def DmKept (s t : State) : Prop := ∀ k, t.dm.readByte k = s.dm.readByte k

/-- Every byte of program memory reads as before. -/
def PmKept (s t : State) : Prop := ∀ k, t.pm.readByte k = s.pm.readByte k

/-! ### What an instruction leaves as it was -/

/-- Of the Machine State only the live bank and ASTAT may differ: every other field, and the bank that is not live, is as
it was (10_state.md R22; 70_reset_and_hazards.md R347). -/
structure OnlyCompute (c d : Cpu) : Prop where
  rest : d = { c with bank0 := d.bank0, bank1 := d.bank1, astat := d.astat }
  shadow : d.shadow = c.shadow

/-- Every flag of ASTAT outside `written` is as it was. -/
def FlagsKept (written : List Nat) (c d : Cpu) : Prop := ∀ k, k < 8 → k ∉ written → d.flag k = c.flag k

/-- An instruction with a condition field completes. With the condition false it does nothing more than evaluate it; with
the condition true it does `done`, from the Machine State after the evaluation to the one it leaves; outside the Machine
State it changes nothing (47_program_flow.md R288). -/
def CompletesIf (i : Instr) (cond : Cond) (s : State) (done : Cpu → Cpu → Prop) : Prop :=
  ∃ t, exec i s = .next t ∧ OnlyCpu s t ∧
    ((evalCond cond s.cpu).1 = false → t.cpu = (evalCond cond s.cpu).2) ∧
    ((evalCond cond s.cpu).1 = true → done (evalCond cond s.cpu).2 t.cpu)

/-! ### The ALU in integers (43_alu.md R171 to R188) -/

/-- The exact value of an arithmetic function on integer operands; none for the logical functions
(43_alu.md R174 to R183, R188). -/
def aluExact (fn : AluFn) (x y carry : Int) : Option Int :=
  match fn with
  | .incY => some (y + 1)
  | .addC => some (x + y + carry)
  | .add => some (x + y)
  | .negY => some (-y)
  | .subC => some (x - y + carry - 1)
  | .sub => some (x - y)
  | .decY => some (y - 1)
  | .rsub => some (y - x)
  | .rsubC => some (y - x + carry - 1)
  | .absX => some (if x < 0 then -x else x)
  | .passY | .notY | .notX | .and | .or | .xor => none

/-- The carry of an arithmetic function from its exact value on unsigned operands: a carry out of bit 15 for a sum, no
borrow for a difference, 0 for ABS (43_alu.md R171, R188). -/
def aluCarry (fn : AluFn) (unsignedValue : Int) : Bool :=
  match fn with
  | .incY | .addC | .add => decide (65536 ≤ unsignedValue)
  | .negY | .subC | .sub | .decY | .rsub | .rsubC => decide (0 ≤ unsignedValue)
  | .absX | .passY | .notY | .notX | .and | .or | .xor => false

/-- The result of a logical function, bit by bit; none for the arithmetic ones (43_alu.md R173, R177, R184 to R187). -/
def aluLogicBit (fn : AluFn) (x y : Bool) : Option Bool :=
  match fn with
  | .passY => some y
  | .notY => some (!y)
  | .notX => some (!x)
  | .and => some (x && y)
  | .or => some (x || y)
  | .xor => some (x != y)
  | .incY | .addC | .add | .negY | .subC | .sub | .decY | .rsub | .rsubC | .absX => none

/-- The carry flag as a number. -/
def Cpu.carry (c : Cpu) : Int := if c.flag bitAC then 1 else 0

/-- What an ALU function leaves that computed `r` before saturation, with overflow `v`, carry `k` and the AS flag `sign`:
AZ, AN and AC replaced, AV replaced or kept set while AV_LATCH is 1, AR (clamped while AR_SAT is 1 and `v`) or AF
written, the rest as it was (43_alu.md R171, R172, R188). -/
structure AluDone (z : Dest) (r : Word) (v k sign : Bool) (c d : Cpu) : Prop where
  only : OnlyCompute c d
  flags : FlagsKept [bitAZ, bitAN, bitAV, bitAC, bitAS] c d
  az : d.flag bitAZ = decide (r = 0)
  an : d.flag bitAN = r.msb
  av : d.flag bitAV = (v || (c.avLatch && c.flag bitAV))
  ac : d.flag bitAC = k
  as : d.flag bitAS = sign
  live : d.live = if z = .primary then { c.live with ar := if c.arSat && v then (if k then 0x8000 else 0x7FFF) else r }
    else { c.live with af := r }

/-! ### The MAC in integers (44_mac.md R200 to R219) -/

/-- The two factors of a MAC function, each read as its function reads it (44_mac.md R205 to R219). -/
def macFactors (fn : MacFn) (x y : Word) : Int × Int :=
  match fn with
  | .mulSU | .addSU | .subSU => (x.toInt, y.toNat)
  | .mulUS | .addUS | .subUS => (x.toNat, y.toInt)
  | .mulUU | .addUU | .subUU => (x.toNat, y.toNat)
  | .noOp | .mulRnd | .addRnd | .subRnd | .mulSS | .addSS | .subSS => (x.toInt, y.toInt)

/-- PS: the exact product, doubled unless M_MODE is 1 (44_mac.md R201). -/
def macPs (fn : MacFn) (x y : Word) (mMode : Bool) : Int :=
  (if mMode then 1 else 2) * ((macFactors fn x y).1 * (macFactors fn x y).2)

/-- The raw result from PS and the accumulator (44_mac.md R202, R205 to R219). -/
def macRaw (fn : MacFn) (ps mr : Int) : Int :=
  match fn with
  | .addRnd | .addSS | .addSU | .addUS | .addUU => mr + ps
  | .subRnd | .subSS | .subSU | .subUS | .subUU => mr - ps
  | .noOp | .mulRnd | .mulSS | .mulSU | .mulUS | .mulUU => ps

/-- The functions marked (RND) (44_mac.md R205 to R207). -/
def macRounds (fn : MacFn) : Bool := fn == .mulRnd || fn == .addRnd || fn == .subRnd

/-- The 40-bit pattern of a MAC function (44_mac.md R202, R203). -/
def macPattern (fn : MacFn) (x y : Word) (mMode : Bool) (mr : Int) : BitVec 40 :=
  let ps := macPs fn x y mMode
  let r := macRaw fn ps mr
  if macRounds fn then
    if ps % 65536 = 32768 then BitVec.ofInt 40 (r + 32768) &&& ~~~(0x10000 : BitVec 40) else BitVec.ofInt 40 (r + 32768)
  else BitVec.ofInt 40 r

/-- What a MAC function leaves that computed the pattern `q`: MV tells whether `q` as a signed number lies outside 32
bits; MR takes `q`, or MF takes its middle word; the rest is as it was (44_mac.md R203). -/
structure MacDone (z : Dest) (q : BitVec 40) (c d : Cpu) : Prop where
  only : OnlyCompute c d
  flags : FlagsKept [bitMV] c d
  mv : d.flag bitMV = decide (q.toInt < -2147483648 ∨ 2147483647 < q.toInt)
  live : d.live = if z = .primary then
      { c.live with mr2 := q.extractLsb' 32 8, mr1 := q.extractLsb' 16 16, mr0 := q.extractLsb' 0 16 }
    else { c.live with mf := q.extractLsb' 16 16 }

/-! ### The shifter bit by bit (45_shifter.md R231 to R247) -/

/-- Bit `k` of the operand placed with its bit 0 at bit `lo` of an endless field: zeros below it, `above` over it. -/
def fieldBit (x : Word) (lo : Int) (above : Bool) (k : Int) : Bool :=
  if k < lo then false else if k < lo + 16 then x.getLsbD (k - lo).toNat else above

/-- Bit `j` of the 32-bit result of a shift by `sc`, before it is joined with SR: LSHIFT and ASHIFT shift left by `sc`,
NORM shifts right by `sc` (45_shifter.md R231 to R243). EXP and EXPADJ have no such result. -/
def shiftedBit (sf : ShFn) (x : Word) (ac : Bool) (sc : Int) (j : Nat) : Bool :=
  match sf with
  | .lshiftHi | .orLshiftHi => fieldBit x 16 false (j - sc)
  | .lshiftLo | .orLshiftLo => fieldBit x 0 false (j - sc)
  | .ashiftHi | .orAshiftHi => fieldBit x 16 x.msb (j - sc)
  | .ashiftLo | .orAshiftLo => fieldBit x 0 x.msb (j - sc)
  | .normHi | .orNormHi => fieldBit x 16 ac (j + sc)
  | .normLo | .orNormLo => fieldBit x 0 false (j + sc)
  | .expHi | .expHix | .expLo | .expAdj => false

/-- The functions that OR their result into SR (45_shifter.md R231). -/
def shiftMerges (sf : ShFn) : Bool :=
  match sf with
  | .orLshiftHi | .orLshiftLo | .orAshiftHi | .orAshiftLo | .orNormHi | .orNormLo => true
  | .lshiftHi | .lshiftLo | .ashiftHi | .ashiftLo | .normHi | .normLo | .expHi | .expHix | .expLo | .expAdj => false

/-- The functions that write SR (45_shifter.md R232 to R243). -/
def shiftWritesSr (sf : ShFn) : Bool := !(sf == .expHi || sf == .expHix || sf == .expLo || sf == .expAdj)

/-- The functions that exist with an immediate shift code, SF = 0 to 7 (45_shifter.md R249). -/
def shiftHasImm (sf : ShFn) : Bool :=
  match sf with
  | .lshiftHi | .orLshiftHi | .lshiftLo | .orLshiftLo | .ashiftHi | .orAshiftHi | .ashiftLo | .orAshiftLo => true
  | .normHi | .orNormHi | .normLo | .orNormLo | .expHi | .expHix | .expLo | .expAdj => false

/-- What a shift of `x` by `sc` leaves: SR alone is written (45_shifter.md R231). -/
structure ShiftDone (sf : ShFn) (x : Word) (sc : Int) (c d : Cpu) : Prop where
  only : OnlyCompute c d
  astat : d.astat = c.astat
  live : d.live = { c.live with sr1 := d.live.sr1, sr0 := d.live.sr0 }
  bits : ∀ j, j < 32 →
    d.live.sr.getLsbD j = (shiftedBit sf x (c.flag bitAC) sc j || (shiftMerges sf && c.live.sr.getLsbD j))

/-- Of the bits `start - 1` down to 0 of `x`, taken in that order, exactly `n` equal `b` before the first that differs
(45_shifter.md R244, R246). -/
structure LeadingRun (x : Word) (start : Nat) (b : Bool) (n : Nat) : Prop where
  bound : n ≤ start
  equal : ∀ j, start - n ≤ j → j < start → x.getLsbD j = b
  ends : n < start → x.getLsbD (start - 1 - n) = !b

/-! ### Stacks -/

/-- `b` is `a` after a push of `v`: with room one more entry, `v`, and every other slot as it was; full, unchanged
(10_state.md R40, R42). -/
structure Pushed {α : Type} {n : Nat} (v : α) (a b : HwStack α n) : Prop where
  room : a.sp.val < n → b.sp.val = a.sp.val + 1 ∧ b.slots[a.sp.val]? = some v ∧
    ∀ k, k ≠ a.sp.val → b.slots[k]? = a.slots[k]?
  full : a.sp.val = n → b = a

/-- `b` is `a` after a pop: one entry less, none below 0, every slot as it was (10_state.md R41, R43). -/
structure Popped {α : Type} {n : Nat} (a b : HwStack α n) : Prop where
  slots : b.slots = a.slots
  pointer : b.sp.val = a.sp.val - 1

/-- The entry a pop delivers: slot `sp - 1`, or slot 0 of an empty stack (10_state.md R43). -/
def Delivers {α : Type} {n : Nat} (a : HwStack α n) (v : α) : Prop := a.slots[a.sp.val - 1]? = some v

/-- SSTAT after a push on the stack with its EMPTY bit at `e`: OVER set if the stack was full, EMPTY cleared if not
(10_state.md R31, R42, R48). -/
structure PushFlags (e : Nat) (full : Bool) (a b : BitVec 8) : Prop where
  emptyBit : b.getLsbD e = (full && a.getLsbD e)
  overBit : b.getLsbD (e + 1) = (full || a.getLsbD (e + 1))

/-- SSTAT after a pop of the stack with its EMPTY bit at `e` and `sp` entries: EMPTY set if the last entry went, OVER as
it was (10_state.md R31, R43, R48). -/
structure PopFlags (e : Nat) (sp : Nat) (a b : BitVec 8) : Prop where
  emptyBit : b.getLsbD e = (decide (sp = 1) || a.getLsbD e)
  overBit : b.getLsbD (e + 1) = a.getLsbD (e + 1)

/-- The two bits of the stack with its EMPTY bit at `e` are as they were. -/
def StackFlagsKept (e : Nat) (a b : BitVec 8) : Prop :=
  b.getLsbD e = a.getLsbD e ∧ b.getLsbD (e + 1) = a.getLsbD (e + 1)

/-- A push of `v` on the PC stack and nothing else (10_state.md R44). -/
structure PcPushed (v : Addr) (c d : Cpu) : Prop where
  rest : d = { c with pcStk := d.pcStk, sstat := d.sstat }
  stack : Pushed v c.pcStk d.pcStk
  flags : PushFlags 0 (decide (c.pcStk.sp.val = 16)) c.sstat d.sstat
  others : StackFlagsKept 2 c.sstat d.sstat ∧ StackFlagsKept 4 c.sstat d.sstat ∧ StackFlagsKept 6 c.sstat d.sstat

/-- A pop of the PC stack and nothing else (10_state.md R44). -/
structure PcPopped (c d : Cpu) : Prop where
  rest : d = { c with pcStk := d.pcStk, sstat := d.sstat }
  stack : Popped c.pcStk d.pcStk
  flags : PopFlags 0 c.pcStk.sp.val c.sstat d.sstat
  others : StackFlagsKept 2 c.sstat d.sstat ∧ StackFlagsKept 4 c.sstat d.sstat ∧ StackFlagsKept 6 c.sstat d.sstat

/-! ### Register writes (10_state.md R37, R38) -/

/-- What register `r` reads as after `v` is written to it in Machine State `c`: `v` cut to the register's width and
widened as R36 says; SSTAT takes the OVER bits alone (10_state.md R31, R36, R38). -/
def Reg.holding (r : Reg) (v : Word) (c : Cpu) : Word :=
  match r with
  | .ax0 | .ax1 | .mx0 | .mx1 | .ay0 | .ay1 | .my0 | .my1 | .si | .ar | .mr0 | .mr1 | .sr0 | .sr1 => v
  | .se | .mr2 => BitVec.ofInt 16 (BitVec.ofInt 8 v.toInt).toInt
  | .sb => BitVec.ofInt 16 (BitVec.ofInt 5 v.toInt).toInt
  | .m _ => BitVec.ofInt 16 (BitVec.ofInt 14 v.toInt).toInt
  | .i _ | .l _ | .cntr => v &&& 0x3FFF
  | .astat | .px => v &&& 0x00FF
  | .mstat | .icntl => v &&& 0x001F
  | .imask => v &&& 0x000F
  | .sstat => (v &&& 0x00AA) ||| (readReg .sstat c &&& 0x0055)

/-- The registers with a copy in each bank (10_state.md R35). -/
def Reg.banked (r : Reg) : Bool :=
  match r with
  | .ax0 | .ax1 | .mx0 | .mx1 | .ay0 | .ay1 | .my0 | .my1 | .si | .se | .ar | .mr0 | .mr1 | .mr2 | .sr0 | .sr1 | .sb => true
  | .i _ | .m _ | .l _ | .astat | .mstat | .sstat | .imask | .icntl | .cntr | .px => false

/-- Writing `r` may change what `q` reads as: itself; MR2 by a write of MR1; SSTAT by a write of CNTR, which pushes; the
banked registers by a write of MSTAT, which may switch banks (10_state.md R22, R26, R38). -/
def Reg.reaches (r q : Reg) : Bool :=
  r == q || (r == .mr1 && q == .mr2) || (r == .cntr && q == .sstat) || (r == .mstat && q.banked)

/-- `base` is `I & LMASK(L)` of the index and the length: with 2^n the smallest power of two that is at least the length,
the index rounded down to a multiple of 2^n (10_state.md R24). -/
def BaseOf (index len base : Addr) : Prop :=
  ∃ n : Nat, len.toNat ≤ 2 ^ n ∧ (∀ m, m < n → 2 ^ m < len.toNat) ∧ base.toNat = index.toNat / 2 ^ n * 2 ^ n

/-- What `RegWrite` of `v` to register `r` leaves (10_state.md R36 to R38). -/
structure RegWritten (r : Reg) (v : Word) (c d : Cpu) : Prop where
  /-- The register holds the low bits of `v` that it has. -/
  holds : readReg r d = r.holding v c
  /-- The registers it does not reach read as before. -/
  others : ∀ q, r.reaches q = false → readReg q d = readReg q c
  /-- A write of MR1 extends its sign into MR2. -/
  signExtends : r = .mr1 → readReg .mr2 d = if v.msb then 0xFFFF else 0
  /-- A write of I[k] or L[k] recomputes BASE[k]; every other base is as it was. -/
  bases : ∀ k : Fin 8, if r = .i k ∨ r = .l k then BaseOf d.i[k] d.l[k] d.base[k] else d.base[k] = c.base[k]
  /-- A write of CNTR pushes the old count. -/
  pushes : r = .cntr → Pushed c.cntr c.cntrStk d.cntrStk ∧
    PushFlags 2 (decide (c.cntrStk.sp.val = 4)) c.sstat d.sstat ∧
    StackFlagsKept 0 c.sstat d.sstat ∧ StackFlagsKept 4 c.sstat d.sstat ∧ StackFlagsKept 6 c.sstat d.sstat
  counterStack : r ≠ .cntr → d.cntrStk = c.cntrStk
  /-- No other bank is reached, and AF and MF have no slot. -/
  banks : r ≠ .mstat → d.shadow = c.shadow ∧ d.live.af = c.live.af ∧ d.live.mf = c.live.mf
  /-- A write of MSTAT moves no data. -/
  banksKept : r = .mstat → d.bank0 = c.bank0 ∧ d.bank1 = c.bank1
  /-- The rest has no slot. -/
  rest : d = { c with
    bank0 := d.bank0, bank1 := d.bank1, px := d.px, i := d.i, m := d.m, l := d.l, base := d.base, cntr := d.cntr
    astat := d.astat, mstat := d.mstat, sstat := d.sstat, imask := d.imask, icntl := d.icntl, cntrStk := d.cntrStk }

/-- What `RegWrite` of `v` to a slot leaves: an invalid slot changes nothing (10_state.md R37 to R39). -/
def SlotWritten (slot : Slot) (v : Word) (c d : Cpu) : Prop :=
  match regAt slot with
  | some r => RegWritten r v c d
  | none => d = c

/-- The slot is that of IMASK or ICNTL, whose write is an evaluation point (60_exceptions.md R316). -/
def controlsInterrupts (slot : Slot) : Bool := slot == ⟨3, 3⟩ || slot == ⟨3, 4⟩

/-! ### Address generators and memory (41_dag_memory.md) -/

/-- The index after an update, as a number: one correction by the length at most (41_dag_memory.md R140). -/
def dagTarget (i base len : Nat) (modifier : Int) : Int :=
  if i + modifier < base then i + modifier + len
  else if (base : Int) + len ≤ i + modifier then i + modifier - len
  else i + modifier

/-- Index `k` of `d` is that of `c` moved by modifier `m`, and nothing else differs (41_dag_memory.md R140). -/
structure IndexMoved (k m : Fin 8) (c d : Cpu) : Prop where
  rest : d = { c with i := d.i }
  moved : d.i[k] = BitVec.ofInt 14 (dagTarget c.i[k].toNat c.base[k].toNat c.l[k].toNat c.m[m].toInt)
  others : ∀ j : Fin 8, j ≠ k → d.i[j] = c.i[j]

/-- Every window of the address generators ends inside the address space (41_dag_memory.md R143). -/
def Cpu.WindowsFit (c : Cpu) : Prop := ∀ k : Fin 8, c.base[k].toNat + c.l[k].toNat ≤ 16384

/-- The state is as it was but for the Machine State and one more access on the bus. -/
structure OneAccess (a : Access) (s t : State) : Prop where
  bus : t.bus = s.bus ++ [a]
  acks : t.acks = s.acks
  irqCallback : t.irqCallback = s.irqCallback
  evalReq : t.evalReq = s.evalReq

/-! ### Kinds of instructions -/

/-- The instructions that store to data memory (41_dag_memory.md R149, R150; 46_multifunction.md R263, R268). -/
def storesDm : Instr → Bool
  | .shiftDmWrite .. | .dmWrite .. | .dmWriteAlu .. | .dmWriteMac8to15 .. | .dmWriteMac4to7 .. | .dmWriteMac2to3 ..
  | .dmWriteMac1 .. | .storeDirect .. | .storeImm .. => true
  | _ => false

/-- The instructions that store to program memory (46_multifunction.md R265, R269). -/
def storesPm : Instr → Bool
  | .shiftPmWrite .. | .pmWrite .. | .pmWriteAlu .. | .pmWriteMac8to15 .. | .pmWriteMac4to7 .. | .pmWriteMac2to3 ..
  | .pmWriteMac1 .. => true
  | _ => false

/-- The instructions that can be an evaluation point: a write of IMASK or ICNTL, and a status stack pop
(60_exceptions.md R316, points 1 to 3). -/
def canEvaluate : Instr → Bool
  | .moveReg dst _ => controlsInterrupts dst
  | .loadImm14 dst _ => controlsInterrupts dst
  | .loadDirect dst _ => controlsInterrupts dst
  | .rti _ => true
  | .stackControl _ _ _ spp => spp == 3
  | _ => false

end Sys2Proof.Machine
end

