-- ==== Sys2Proof/Certificates/Slice0/Obligations.lean ====
section
/-!
DEFINITION. The statements for the provers. Each docstring names the rules of spec/ it rests on. `exec` is the meaning of one
instruction, `step` the whole step; the terms a conclusion is written in (`AluDone`, `MacDone`, `RegWritten`, ...) are in
Safety.lean and say what the rules say in integers and single bits.
-/
section Statements

open Sys2Proof Sys2Proof.Machine

/-! ### Every instruction and every step -/

/-- CORE has no fault, trap or error result: every instruction in every state, and every step, goes to a next state
(60_exceptions.md R310). -/
def Obligations.EveryInstructionAndStepCompletes : Prop :=
  (∀ (i : Instr) (s : State), ∃ t, exec i s = .next t) ∧ ∀ s : State, ∃ t, step s = .next t

/-- A step runs the instruction that the word at PM:PC decodes to, in the state the fetch and the loop test leave
(memories as they were, the fetch on the bus); then, when the instruction asked for it, interrupts are evaluated once
(47_program_flow.md R280). -/
def Obligations.StepRunsTheDecodedInstruction : Prop :=
  ∀ (i : Instr) (s : State), i.wellFormed = true → decode (s.pm.pmWord s.cpu.pc) = i →
    ∃ e t, e.cpu = Cpu.advance s.cpu.pc s.cpu ∧ e.dm = s.dm ∧ e.pm = s.pm ∧ e.bus = [.fetch s.cpu.pc] ∧ e.acks = [] ∧
      e.irqCallback = s.irqCallback ∧
      e.evalReq = false ∧ exec i e = .next t ∧
      step s = .next (if t.evalReq then evaluateInterrupts { t with evalReq := false } else t)

/-- PC before the instruction executes: the next address, wrapping in 14 bits, unless the instruction is the last of
the open loop. Then the loop's condition is evaluated; if it holds PC is the top of the PC stack, if not the loop
stack and the PC stack are popped once each and PC is the next address (47_program_flow.md R280, R292; 10_state.md
R25). -/
def Obligations.LoopTestChoosesTheNextPc : Prop :=
  ∀ s : State,
    let a := s.cpu.pc
    let e := (enterInstr s).cpu
    ((s.cpu.loopStk.sp.val = 0 ∨ ∀ l, Delivers s.cpu.loopStk l → l.endAddr ≠ a) → e = { s.cpu with pc := a + 1 }) ∧
    ∀ l, 0 < s.cpu.loopStk.sp.val → Delivers s.cpu.loopStk l → l.endAddr = a →
      let c := (evalCond l.term s.cpu).2
      ((evalCond l.term s.cpu).1 = true → ∃ start, Delivers s.cpu.pcStk start ∧ e = { c with pc := start }) ∧
      ((evalCond l.term s.cpu).1 = false →
        e = { c with pc := a + 1, loopStk := e.loopStk, pcStk := e.pcStk, sstat := e.sstat } ∧
        Popped c.loopStk e.loopStk ∧ Popped c.pcStk e.pcStk ∧
        PopFlags 6 c.loopStk.sp.val c.sstat e.sstat ∧ PopFlags 0 c.pcStk.sp.val c.sstat e.sstat ∧
        StackFlagsKept 2 c.sstat e.sstat ∧ StackFlagsKept 4 c.sstat e.sstat)

/-! ### Encoding -/

/-- Decoding the word of a well-formed instruction gives the instruction back, whatever its operands (30_encoding.md
R102). -/
def Obligations.DecodeOfEncodeIsTheInstruction : Prop :=
  ∀ i : Instr, i.wellFormed = true → decode (encode i) = i ∧ decodeTableWord 24 (encode i).toNat = some i

/-- Every one of the 2^24 words matches the opcode-table row of the instruction it decodes to, and no other row
(30_encoding.md R101, R117). -/
def Obligations.EveryWordMatchesExactlyOneRow : Prop :=
  ∀ op : PWord, (decode op).wellFormed = true ∧ op &&& (decode op).row.mask = (decode op).row.bits ∧
    ∀ j : Instr, j.wellFormed = true → op &&& j.row.mask = j.row.bits → j.row = (decode op).row

/-- Words the spec writes out decode to the instructions it says they are (the examples of R130, R132, R133, R147,
R149, R160, R176, R208, R221, R232, R249, R263, R266, R284, R289, R291). -/
def Obligations.SpecWordsDecode : Prop :=
  decode 0x0D000A = .moveReg ⟨0, 0⟩ ⟨0, 10⟩ ∧ decode 0x37FFF4 = .loadImm14 ⟨1, 4⟩ 0x3FFF ∧
  decode 0x0C3800 = .modeControl 0 3 2 0 0 0 0 ∧ decode 0x090006 = .modify .dag1 1 2 ∧
  decode 0x90010C = .storeDirect 0x0010 ⟨0, 12⟩ ∧ decode 0x04001C = .stackControl true true true 0 ∧
  decode 0x22600F = .arAdd 0 0 .always ∧ decode 0x20800F = .mrMulSS 0 0 .always ∧ decode 0x050000 = .satMr ∧
  decode 0x0E000F = .lshiftHi 0 .always ∧ decode 0x0F30FD = .ashiftLoImm 0 0xFD ∧
  decode 0x6A60A0 = .dmWriteAlu .dag1 .primary .add 0 0 10 0 0 ∧
  decode 0xE90000 = .dualRead 2 2 (.mac .addSS) 0 0 0 0 0 0 ∧ decode 0x181000 = .jump 0x0100 .eq ∧
  decode 0x0A0001 = .rts .ne ∧ decode 0x14105E = .doUntil 0x0105 .notCe

/-! ### Invariants and reset -/

/-- Every step keeps the invariant: the EMPTY bits of SSTAT tell the empty stacks (10_state.md R48), both memories are
in canonical form (the model's own choice, log 2 and log 3), and no interrupt evaluation is left over (log 5). -/
def Obligations.StepKeepsInv : Prop := ∀ s t : State, s.Inv → step s = .next t → t.Inv

/-- The state after reset meets the invariant, and its windows fit; that memory then lists nothing and the unspecified
registers are 0 is the model's choice (log 1, log 2). -/
def Obligations.ResetMeetsInv : Prop := State.reset.Inv ∧ State.reset.cpu.WindowsFit

/-- The host's operations keep the invariant; for a snapshot because one that breaks it is refused, which is the
model's reading of "refuse" (log 13) (60_exceptions.md R313; 70_reset_and_hazards.md R340, R350, R351). -/
def Obligations.HostCallsKeepInv : Prop :=
  ∀ s : State, s.Inv →
    (∀ n b, (assertIrqLine n b s).Inv) ∧ (∀ g i v, (writeRegister g i v s).Inv) ∧ (hostReset s).Inv ∧
    (∀ a v, (hostStoreDm a v s).Inv) ∧ (∀ a v, (hostStorePm a v s).Inv) ∧ (∀ b, (setIrqVectorCallback b s).Inv) ∧
    ∀ c t, setState c s = .next t → t.Inv

/-- Windows stay inside the address space: BASE[k] + L[k] is at most 2^14 for every slot, and every step keeps it so
(41_dag_memory.md R143). -/
def Obligations.StepKeepsWindowsInside : Prop :=
  ∀ s t : State, s.cpu.WindowsFit → step s = .next t → t.cpu.WindowsFit

/-- The values reset gives the state that the spec gives a reset value; the host has asserted no line (10_state.md
R58). -/
def Obligations.ResetValues : Prop :=
  let c := State.reset.cpu
  c.pc = 0x0004 ∧ c.astat = 0 ∧ c.mstat = 0 ∧ c.sstat = 0x55 ∧ c.imask = 0 ∧ c.icntl = 0 ∧ c.pcStk.sp.val = 0 ∧
    c.cntrStk.sp.val = 0 ∧ c.statStk.sp.val = 0 ∧ c.loopStk.sp.val = 0 ∧ c.irqLatch = 0 ∧ c.irqLine = 0 ∧
    ∀ k : Fin 8, BaseOf c.i[k] c.l[k] c.base[k]

/-- The host's reset, on any state, sets exactly what R58 gives a value and leaves the rest; it makes no access and
gives no acknowledge (70_reset_and_hazards.md R340). -/
def Obligations.HostResetSetsExactlyTheListedState : Prop :=
  ∀ s : State,
    let c := s.cpu
    let d := (hostReset s).cpu
    d.pc = 0x0004 ∧ d.astat = 0 ∧ d.mstat = 0 ∧ d.sstat = 0x55 ∧ d.imask = 0 ∧ d.icntl = 0 ∧ d.irqLatch = 0 ∧
    d.pcStk.sp.val = 0 ∧ d.cntrStk.sp.val = 0 ∧ d.statStk.sp.val = 0 ∧ d.loopStk.sp.val = 0 ∧
    (∀ k : Fin 8, BaseOf c.i[k] c.l[k] d.base[k]) ∧
    d.bank0 = c.bank0 ∧ d.bank1 = c.bank1 ∧ d.px = c.px ∧ d.i = c.i ∧ d.m = c.m ∧ d.l = c.l ∧ d.cntr = c.cntr ∧
    d.irqLine = c.irqLine ∧ d.pcStk.slots = c.pcStk.slots ∧ d.cntrStk.slots = c.cntrStk.slots ∧
    d.statStk.slots = c.statStk.slots ∧ d.loopStk.slots = c.loopStk.slots ∧
    (hostReset s).dm = s.dm ∧ (hostReset s).pm = s.pm ∧ (hostReset s).bus = [] ∧ (hostReset s).acks = [] ∧
    (hostReset s).irqCallback = s.irqCallback

/-! ### The ALU -/

/-- The operand tables of the three units, read from the live bank (43_alu.md R170; 44_mac.md R200; 45_shifter.md
R230). -/
def Obligations.OperandTables : Prop :=
  ∀ c : Cpu,
    let b := c.live
    (aluX 0 c = b.ax0 ∧ aluX 1 c = b.ax1 ∧ aluX 2 c = b.ar ∧ aluX 3 c = b.mr0 ∧ aluX 4 c = b.mr1 ∧
      aluX 5 c = b.mr2.signExtend 16 ∧ aluX 6 c = b.sr0 ∧ aluX 7 c = b.sr1) ∧
    (aluY 0 c = b.ay0 ∧ aluY 1 c = b.ay1 ∧ aluY 2 c = b.af ∧ aluY 3 c = 0) ∧
    (macX 0 c = b.mx0 ∧ macX 1 c = b.mx1 ∧ macX 2 c = b.ar ∧ macX 3 c = b.mr0 ∧ macX 4 c = b.mr1 ∧
      macX 5 c = b.mr2.signExtend 16 ∧ macX 6 c = b.sr0 ∧ macX 7 c = b.sr1) ∧
    (macY 0 c = b.my0 ∧ macY 1 c = b.my1 ∧ macY 2 c = b.mf ∧ macY 3 c = 0) ∧
    (shX 0 c = b.si ∧ shX 1 c = b.sr1 ∧ shX 2 c = b.sr0 ∧ shX 3 c = b.ar ∧ shX 4 c = b.mr0 ∧ shX 5 c = b.mr1 ∧
      shX 6 c = b.mr2.signExtend 16 ∧ shX 7 c = 0)

/-- The flag formulas mean what R171 says of them: the result is the exact sum or difference in 16 bits, V is exact
signed overflow, C is the unsigned carry of a sum and no borrow of a difference; and setting the flags replaces AZ,
AN, AC, makes AV sticky while AV_LATCH is 1 and touches no other flag (43_alu.md R171; 10_state.md R28). -/
def Obligations.AluFlagFormulas : Prop :=
  (∀ (a b : Word) (cin : Bool),
    let k : Int := if cin then 1 else 0
    let sum := aluAdd a b cin
    let dif := aluSub a b cin
    (sum.res = BitVec.ofInt 16 (a.toInt + b.toInt + k) ∧ sum.z = decide (sum.res = 0) ∧ sum.n = sum.res.msb ∧
      (sum.v = true ↔ a.toInt + b.toInt + k < -32768 ∨ 32767 < a.toInt + b.toInt + k) ∧
      (sum.c = true ↔ 65536 ≤ (a.toNat : Int) + b.toNat + k)) ∧
    (dif.res = BitVec.ofInt 16 (a.toInt - b.toInt + k - 1) ∧ dif.z = decide (dif.res = 0) ∧ dif.n = dif.res.msb ∧
      (dif.v = true ↔ a.toInt - b.toInt + k - 1 < -32768 ∨ 32767 < a.toInt - b.toInt + k - 1) ∧
      (dif.c = true ↔ 0 ≤ (a.toNat : Int) - b.toNat + k - 1))) ∧
  (∀ r : Word, aluLogic r = ⟨r, decide (r = 0), r.msb, false, false⟩) ∧
  ∀ (o : AluOut) (c : Cpu),
    let d := c.setAluFlags o
    d = { c with astat := d.astat } ∧ d.flag bitAZ = o.z ∧ d.flag bitAN = o.n ∧ d.flag bitAC = o.c ∧
      d.flag bitAV = (if c.avLatch then (c.flag bitAV || o.v) else o.v) ∧ FlagsKept [bitAZ, bitAN, bitAV, bitAC] c d

/-- The arithmetic functions in their conditional form, to AR and to AF (the constructors arIncY, arAddC, arAdd,
arNegY, arSubC, arSub, arDecY, arRsub, arRsubC, arAbsX, afIncY, afAddC, afAdd, afNegY, afSubC, afSub, afDecY, afRsub,
afRsubC, afAbsX): they complete in every state; with the condition true the result is the exact integer value in 16
bits, with the flags, the saturation and the frame of R171 and R172 (43_alu.md R174 to R176, R178 to R183, R188,
R189). -/
def Obligations.AluArithmeticFunctions : Prop :=
  ∀ (z : Dest) (fn : AluFn) (yop : BitVec 2) (xop : BitVec 3) (cond : Cond) (s : State),
    CompletesIf (condAlu z fn yop xop cond) cond s fun c d =>
      ∀ e u : Int, aluExact fn (aluX xop c).toInt (aluY yop c).toInt c.carry = some e →
        aluExact fn (aluX xop c).toNat (aluY yop c).toNat c.carry = some u →
        AluDone z (BitVec.ofInt 16 e) (decide (e < -32768 ∨ 32767 < e)) (aluCarry fn u)
          (if fn = .absX then (aluX xop c).msb else c.flag bitAS) c d

/-- The logical functions in their conditional form, to AR and to AF (the constructors arPassY, arNotY, arNotX, arAnd,
arOr, arXor, afPassY, afNotY, afNotX, afAnd, afOr, afXor): they complete in every state; with the condition true the
result has the bits of R173, R177, R184 to R187, without overflow or carry (43_alu.md R189). -/
def Obligations.AluLogicalFunctions : Prop :=
  ∀ (z : Dest) (fn : AluFn) (yop : BitVec 2) (xop : BitVec 3) (cond : Cond) (s : State),
    CompletesIf (condAlu z fn yop xop cond) cond s fun c d =>
      ∀ r : Word,
        (∀ j, j < 16 → aluLogicBit fn ((aluX xop c).getLsbD j) ((aluY yop c).getLsbD j) = some (r.getLsbD j)) →
        AluDone z r false false (c.flag bitAS) c d

/-- With AR_SAT set, every arithmetic function leaves in AR the exact value brought into -32768 to 32767: the carry
does select the limit on the side of the overflow (43_alu.md R172). -/
def Obligations.SaturatedArIsTheNearestLimit : Prop :=
  ∀ (fn : AluFn) (yop : BitVec 2) (xop : BitVec 3) (s : State) (e : Int), s.cpu.arSat = true →
    aluExact fn (aluX xop s.cpu).toInt (aluY yop s.cpu).toInt s.cpu.carry = some e →
    ∃ t, exec (condAlu .primary fn yop xop .always) s = .next t ∧
      t.cpu.live.ar.toInt = max (-32768) (min 32767 e)

/-- After `xop - yop` with AV not sticky, the conditions compare the operands as signed numbers, overflow included,
and AC compares them as unsigned numbers (43_alu.md R171, R180; 47_program_flow.md R281). -/
def Obligations.ConditionsCompareAfterSubtract : Prop :=
  ∀ (z : Dest) (yop : BitVec 2) (xop : BitVec 3) (s : State), s.cpu.avLatch = false →
    ∃ t, exec (condAlu z .sub yop xop .always) s = .next t ∧
      let x := aluX xop s.cpu
      let y := aluY yop s.cpu
      (evalCond .eq t.cpu).1 = decide (x = y) ∧ (evalCond .ne t.cpu).1 = decide (x ≠ y) ∧
      (evalCond .lt t.cpu).1 = decide (x.toInt < y.toInt) ∧ (evalCond .ge t.cpu).1 = decide (y.toInt ≤ x.toInt) ∧
      (evalCond .le t.cpu).1 = decide (x.toInt ≤ y.toInt) ∧ (evalCond .gt t.cpu).1 = decide (y.toInt < x.toInt) ∧
      (evalCond .ac t.cpu).1 = decide (y.toNat ≤ x.toNat) ∧ (evalCond .notAc t.cpu).1 = decide (x.toNat < y.toNat)

/-- The two divide primitives (divs, divq): AQ, AF and AY0 are written, from AY0 as it was, and nothing else
(43_alu.md R190, R191). -/
def Obligations.DivideSteps : Prop :=
  (∀ (yop : BitVec 2) (xop : BitVec 3) (s : State), ∃ t, exec (.divs yop xop) s = .next t ∧ OnlyCpu s t ∧
    OnlyCompute s.cpu t.cpu ∧ FlagsKept [bitAQ] s.cpu t.cpu ∧
    let q := (aluX xop s.cpu).msb != (aluY yop s.cpu).msb
    t.cpu.flag bitAQ = q ∧
    t.cpu.live = { s.cpu.live with
      af := BitVec.ofNat 16 (2 * (aluY yop s.cpu).toNat + s.cpu.live.ay0.msb.toNat)
      ay0 := BitVec.ofNat 16 (2 * s.cpu.live.ay0.toNat + q.toNat) }) ∧
  ∀ (xop : BitVec 3) (s : State), ∃ t, exec (.divq xop) s = .next t ∧ OnlyCpu s t ∧
    OnlyCompute s.cpu t.cpu ∧ FlagsKept [bitAQ] s.cpu t.cpu ∧
    let x := (aluX xop s.cpu).toInt
    let r := if s.cpu.flag bitAQ then s.cpu.live.af.toInt + x else s.cpu.live.af.toInt - x
    let q := (BitVec.ofInt 16 r).msb != (aluX xop s.cpu).msb
    t.cpu.flag bitAQ = q ∧
    t.cpu.live = { s.cpu.live with
      af := BitVec.ofInt 16 (2 * r + s.cpu.live.ay0.msb.toNat)
      ay0 := BitVec.ofNat 16 (2 * s.cpu.live.ay0.toNat + (!q).toNat) }

/-! ### The MAC -/

/-- The MAC functions in their conditional form, to MR and to MF (the constructors mrMulRnd, mfMulRnd, mrAddRnd,
mfAddRnd, mrSubRnd, mfSubRnd, mrMulSS, mfMulSS, mrMulSU, mfMulSU, mrMulUS, mfMulUS, mrMulUU, mfMulUU, mrAddSS,
mfAddSS, mrAddSU, mfAddSU, mrAddUS, mfAddUS, mrAddUU, mfAddUU, mrSubSS, mfSubSS, mrSubSU, mfSubSU, mrSubUS, mfSubUS,
mrSubUU, mfSubUU, and condNoCompute for function 0): they complete in every state; with the condition true the 40-bit
pattern is that of R201 and R202 and it is routed, with MV, as R203 says; function 0 does nothing (44_mac.md R204 to
R220). -/
def Obligations.MacFunctions : Prop :=
  ∀ (z : Dest) (fn : MacFn) (yop : BitVec 2) (xop : BitVec 3) (cond : Cond) (s : State),
    CompletesIf (condMac z fn yop xop cond) cond s fun c d =>
      (fn = .noOp → d = c) ∧
      (fn ≠ .noOp → MacDone z (macPattern fn (macX xop c) (macY yop c) c.mMode c.live.mr.toInt) c d)

/-- `MR = xop * yop (RND)` leaves in MR2 and MR1 the multiple of 2^16 nearest to the product, and the even one of the
two when the product lies half way (44_mac.md R202, R205). -/
def Obligations.RoundedProductIsNearestEven : Prop :=
  ∀ (yop : BitVec 2) (xop : BitVec 3) (s : State), ∃ t, exec (.mrMulRnd yop xop .always) s = .next t ∧
    let ps := macPs .mulRnd (macX xop s.cpu) (macY yop s.cpu) s.cpu.mMode
    let h := (t.cpu.live.mr2 ++ t.cpu.live.mr1).toInt
    ps - 65536 * h ≤ 32768 ∧ 65536 * h - ps ≤ 32768 ∧ (ps % 65536 = 32768 → h % 2 = 0)

/-- 0x8000 times 0x8000 in the fractional mode is the only product of two signed operands that sets MV (44_mac.md
R208). -/
def Obligations.OnlySignedProductThatSetsMv : Prop :=
  ∀ (z : Dest) (yop : BitVec 2) (xop : BitVec 3) (s : State), ∃ t, exec (condMac z .mulSS yop xop .always) s = .next t ∧
    t.cpu.flag bitMV = decide (macX xop s.cpu = 0x8000 ∧ macY yop s.cpu = 0x8000 ∧ s.cpu.mMode = false)

/-- `IF MV SAT MR` (satMr): with MV clear nothing changes; with MV set MR becomes the 32-bit limit of its sign and
nothing else changes, MV included. Right after a MAC function to MR it brings the 40-bit result into the 32-bit range
(44_mac.md R203, R221). -/
def Obligations.SaturateMr : Prop :=
  (∀ s : State, ∃ t, exec .satMr s = .next t ∧ OnlyCpu s t ∧ (s.cpu.flag bitMV = false → t.cpu = s.cpu) ∧
    (s.cpu.flag bitMV = true → OnlyCompute s.cpu t.cpu ∧ t.cpu.astat = s.cpu.astat ∧
      t.cpu.live = { s.cpu.live with mr2 := t.cpu.live.mr2, mr1 := t.cpu.live.mr1, mr0 := t.cpu.live.mr0 } ∧
      t.cpu.live.mr.toInt = if s.cpu.live.mr.toInt < 0 then -2147483648 else 2147483647)) ∧
  ∀ (fn : MacFn) (yop : BitVec 2) (xop : BitVec 3) (s : State), fn ≠ .noOp →
    ∃ u t, exec (condMac .primary fn yop xop .always) s = .next u ∧ exec .satMr u = .next t ∧
      t.cpu.live.mr.toInt = max (-2147483648) (min 2147483647
        (macPattern fn (macX xop s.cpu) (macY yop s.cpu) s.cpu.mMode s.cpu.live.mr.toInt).toInt)

/-! ### The shifter -/

/-- The twelve functions that write SR, in their conditional form (lshiftHi, orLshiftHi, lshiftLo, orLshiftLo,
ashiftHi, orAshiftHi, ashiftLo, orAshiftLo, normHi, orNormHi, normLo, orNormLo): they complete in every state; with
the condition true SR has the bits of R232 to R243 for the shift code in SE, whatever its size, and nothing else
changes (45_shifter.md R231, R248). -/
def Obligations.ConditionalShifts : Prop :=
  ∀ (sf : ShFn) (xop : BitVec 3) (cond : Cond) (s : State),
    CompletesIf (condShift sf xop cond) cond s fun c d =>
      shiftWritesSr sf = true → ShiftDone sf (shX xop c) c.live.se.toInt c d

/-- The eight shifts by an immediate (lshiftHiImm, orLshiftHiImm, lshiftLoImm, orLshiftLoImm, ashiftHiImm,
orAshiftHiImm, ashiftLoImm, orAshiftLoImm): the same with the shift code of the word; SE is neither read nor written
(45_shifter.md R249). -/
def Obligations.ImmediateShifts : Prop :=
  ∀ (sf : ShFn) (xop : BitVec 3) (n : BitVec 8) (s : State), shiftHasImm sf = true →
    ∃ t, exec (immShift sf xop n) s = .next t ∧ OnlyCpu s t ∧ ShiftDone sf (shX xop s.cpu) n.toInt s.cpu t.cpu

/-- EXP (HI), EXP (HIX), EXP (LO) and EXPADJ in their conditional form (expHi, expHix, expLo, expAdj): the exponent is
minus the number of redundant sign bits; SE, SB and SS alone are written (45_shifter.md R244 to R248). -/
def Obligations.ExponentFunctions : Prop :=
  ∀ (xop : BitVec 3) (cond : Cond) (s : State),
    (CompletesIf (.expHi xop cond) cond s fun c d =>
      let x := shX xop c
      ∃ n, LeadingRun x 15 x.msb n ∧ OnlyCompute c d ∧ FlagsKept [bitSS] c d ∧ d.flag bitSS = x.msb ∧
        d.live = { c.live with se := BitVec.ofInt 8 (-n) }) ∧
    (CompletesIf (.expHix xop cond) cond s fun c d =>
      let x := shX xop c
      ∃ n, LeadingRun x 15 x.msb n ∧ OnlyCompute c d ∧ FlagsKept [bitSS] c d ∧
        d.flag bitSS = (if c.flag bitAV then !x.msb else x.msb) ∧
        d.live = { c.live with se := if c.flag bitAV then 1 else BitVec.ofInt 8 (-n) }) ∧
    (CompletesIf (.expLo xop cond) cond s fun c d =>
      ∃ n, LeadingRun (shX xop c) 16 (c.flag bitSS) n ∧ OnlyCompute c d ∧ d.astat = c.astat ∧
        d.live = { c.live with se := if c.live.se.toInt = -15 then BitVec.ofInt 8 (-(15 + n)) else c.live.se }) ∧
    CompletesIf (.expAdj xop cond) cond s fun c d =>
      let x := shX xop c
      ∃ n : Nat, LeadingRun x 15 x.msb n ∧ OnlyCompute c d ∧ d.astat = c.astat ∧
        d.live = { c.live with sb := d.live.sb } ∧ d.live.sb.toInt = max c.live.sb.toInt (-(n : Int))

/-- `SE = EXP xop (HI)` followed by `SR = NORM xop (HI)` normalizes: SR is the operand times an exact power of two,
and unless the operand is 0 its two top bits differ (45_shifter.md R240, R244). -/
def Obligations.ExpThenNormNormalizes : Prop :=
  ∀ (xop : BitVec 3) (s : State), ∃ u t, exec (.expHi xop .always) s = .next u ∧ exec (.normHi xop .always) u = .next t ∧
    let x := shX xop s.cpu
    let sr := t.cpu.live.sr
    u.cpu.live.se.toInt ≤ 0 ∧ sr.toInt = x.toInt * 65536 * 2 ^ (-u.cpu.live.se.toInt).toNat ∧
      (x ≠ 0 → sr.getLsbD 31 ≠ sr.getLsbD 30)

/-! ### Conditions -/

/-- The condition table by its codes, without side effect for every code but 14; code 14 is the counter condition,
which `CounterCondition` states (47_program_flow.md R281). -/
def Obligations.ConditionTable : Prop :=
  ∀ c : Cpu,
    let z := c.flag bitAZ
    let lt := c.flag bitAN != c.flag bitAV
    let cond := fun code : BitVec 4 => evalCond (Cond.ofBits code) c
    cond 0 = (z, c) ∧ cond 1 = (!z, c) ∧ cond 2 = (!(lt || z), c) ∧ cond 3 = (lt || z, c) ∧ cond 4 = (lt, c) ∧
    cond 5 = (!lt, c) ∧ cond 6 = (c.flag bitAV, c) ∧ cond 7 = (!c.flag bitAV, c) ∧ cond 8 = (c.flag bitAC, c) ∧
    cond 9 = (!c.flag bitAC, c) ∧ cond 10 = (c.flag bitAS, c) ∧ cond 11 = (!c.flag bitAS, c) ∧
    cond 12 = (c.flag bitMV, c) ∧ cond 13 = (!c.flag bitMV, c) ∧ cond 14 = evalCond .notCe c ∧ cond 15 = (true, c)

/-- The counter condition: CNTR is decremented in 14 bits; if it is not 0 the condition is true and nothing else
changes, if it is 0 the condition is false and the counter stack is popped into CNTR (47_program_flow.md R282;
10_state.md R45). -/
def Obligations.CounterCondition : Prop :=
  ∀ c : Cpu,
    let r := evalCond .notCe c
    (c.cntr - 1 ≠ 0 → r = (true, { c with cntr := c.cntr - 1 })) ∧
    (c.cntr - 1 = 0 → r.1 = false ∧
      ∃ v, Delivers c.cntrStk v ∧ r.2 = { c with cntr := v, cntrStk := r.2.cntrStk, sstat := r.2.sstat } ∧
        Popped c.cntrStk r.2.cntrStk ∧ PopFlags 2 c.cntrStk.sp.val c.sstat r.2.sstat ∧
        StackFlagsKept 0 c.sstat r.2.sstat ∧ StackFlagsKept 4 c.sstat r.2.sstat ∧ StackFlagsKept 6 c.sstat r.2.sstat)

/-- A count of N, 1 to 16384 (CNTR = 0 counts as 16384), holds N - 1 times and then runs out (47_program_flow.md
R282). -/
def Obligations.CounterRunsOutAfterItsCount : Prop :=
  ∀ (c : Cpu) (count : Nat), 1 ≤ count → count ≤ 16384 → c.cntr = BitVec.ofNat 14 count →
    let after := fun k => (fun d : Cpu => (evalCond .notCe d).2)^[k] c
    (∀ k, k + 1 < count → (evalCond .notCe (after k)).1 = true ∧ after k = { c with cntr := c.cntr - BitVec.ofNat 14 k }) ∧
    (evalCond .notCe (after (count - 1))).1 = false

/-! ### Registers -/

/-- The register map: which register each of the 64 slots names, and what a read of each register yields; the 16 slots
past the end of their group name none and read 0 (10_state.md R35, R36, R39). -/
def Obligations.RegisterReads : Prop :=
  (List.range 16).map (fun k => regAt ⟨0, BitVec.ofNat 4 k⟩) =
      [some .ax0, some .ax1, some .mx0, some .mx1, some .ay0, some .ay1, some .my0, some .my1,
        some .si, some .se, some .ar, some .mr0, some .mr1, some .mr2, some .sr0, some .sr1] ∧
    (List.range 16).map (fun k => regAt ⟨1, BitVec.ofNat 4 k⟩) =
      [some (.i 0), some (.i 1), some (.i 2), some (.i 3), some (.m 0), some (.m 1), some (.m 2), some (.m 3),
        some (.l 0), some (.l 1), some (.l 2), some (.l 3), none, none, none, none] ∧
    (List.range 16).map (fun k => regAt ⟨2, BitVec.ofNat 4 k⟩) =
      [some (.i 4), some (.i 5), some (.i 6), some (.i 7), some (.m 4), some (.m 5), some (.m 6), some (.m 7),
        some (.l 4), some (.l 5), some (.l 6), some (.l 7), none, none, none, none] ∧
    (List.range 16).map (fun k => regAt ⟨3, BitVec.ofNat 4 k⟩) =
      [some .astat, some .mstat, some .sstat, some .imask, some .icntl, some .cntr, some .sb, some .px,
        none, none, none, none, none, none, none, none] ∧
    ∀ c : Cpu,
      (∀ slot : Slot, regRead slot c = ((regAt slot).map fun r => readReg r c).getD 0) ∧
      (readReg .se c).toInt = c.live.se.toInt ∧ (readReg .mr2 c).toInt = c.live.mr2.toInt ∧
      (readReg .sb c).toInt = c.live.sb.toInt ∧ (∀ k : Fin 8, (readReg (.m k) c).toInt = c.m[k].toInt) ∧
      (∀ k : Fin 8, (readReg (.i k) c).toNat = c.i[k].toNat ∧ (readReg (.l k) c).toNat = c.l[k].toNat) ∧
      (readReg .cntr c).toNat = c.cntr.toNat ∧ (readReg .astat c).toNat = c.astat.toNat ∧
      (readReg .mstat c).toNat = c.mstat.toNat ∧ (readReg .sstat c).toNat = c.sstat.toNat ∧
      (readReg .imask c).toNat = c.imask.toNat ∧ (readReg .icntl c).toNat = c.icntl.toNat ∧
      (readReg .px c).toNat = c.px.toNat ∧
      [Reg.ax0, .ax1, .mx0, .mx1, .ay0, .ay1, .my0, .my1, .si, .ar, .mr0, .mr1, .sr0, .sr1].map (readReg · c) =
        [c.live.ax0, c.live.ax1, c.live.mx0, c.live.mx1, c.live.ay0, c.live.ay1, c.live.my0, c.live.my1, c.live.si,
          c.live.ar, c.live.mr0, c.live.mr1, c.live.sr0, c.live.sr1]

/-- The register move, the two immediate loads and the direct load (moveReg, loadImm16, loadImm14, loadDirect)
complete in every state; each writes its value to its slot and leaves everything else, an invalid slot taking nothing;
a write of IMASK or ICNTL asks for an evaluation of interrupts; the load reads DM:addr even for an invalid slot
(40_register_move.md R130 to R132; 41_dag_memory.md R148; 10_state.md R37 to R39). -/
def Obligations.RegisterWritingInstructions : Prop :=
  ∀ s : State,
    (∀ dst src : Slot, ∃ t, exec (.moveReg dst src) s = .next t ∧ DmKept s t ∧ PmKept s t ∧ t.bus = s.bus ∧
      t.acks = s.acks ∧ t.irqCallback = s.irqCallback ∧ t.evalReq = (s.evalReq || controlsInterrupts dst) ∧
      SlotWritten dst (regRead src s.cpu) s.cpu t.cpu) ∧
    (∀ (data : Word) (dreg : BitVec 4), ∃ t, exec (.loadImm16 data dreg) s = .next t ∧ OnlyCpu s t ∧
      SlotWritten ⟨0, dreg⟩ data s.cpu t.cpu) ∧
    (∀ (dst : Slot) (data : BitVec 14), ∃ t, exec (.loadImm14 dst data) s = .next t ∧ DmKept s t ∧ PmKept s t ∧
      t.bus = s.bus ∧ t.acks = s.acks ∧ t.irqCallback = s.irqCallback ∧
      t.evalReq = (s.evalReq || controlsInterrupts dst) ∧
      SlotWritten dst (BitVec.ofInt 16 data.toInt) s.cpu t.cpu) ∧
    ∀ (dst : Slot) (addr : Addr), ∃ t, exec (.loadDirect dst addr) s = .next t ∧ DmKept s t ∧ PmKept s t ∧
      t.bus = s.bus ++ [.dmRead addr] ∧ t.acks = s.acks ∧ t.irqCallback = s.irqCallback ∧
      t.evalReq = (s.evalReq || controlsInterrupts dst) ∧
      SlotWritten dst (s.dm.dmWord addr) s.cpu t.cpu

/-- Mode control: each field whose high bit is set gives its MSTAT bit its low bit, the others leave theirs; both
banks keep their contents, ASTAT is not changed, TI and GM do nothing (40_register_move.md R133; 10_state.md R22). -/
def Obligations.ModeControl : Prop :=
  ∀ (ti mm sat ol br sr gm : BitVec 2) (s : State),
    ∃ t, exec (.modeControl ti mm sat ol br sr gm) s = .next t ∧ OnlyCpu s t ∧
      t.cpu = { s.cpu with mstat := t.cpu.mstat } ∧
      ∀ k (f : BitVec 2), [sr, br, ol, sat, mm][k]? = some f →
        t.cpu.mstat.getLsbD k = if f.getLsbD 1 then f.getLsbD 0 else s.cpu.mstat.getLsbD k

/-! ### Address generators and memory -/

/-- MODIFY: the index moves by the modifier with one correction at most; no access is made and nothing else changes
(41_dag_memory.md R140, R147). -/
def Obligations.ModifyMovesTheIndex : Prop :=
  ∀ (g : Gen) (i m : BitVec 2) (s : State), ∃ t, exec (.modify g i m) s = .next t ∧ OnlyCpu s t ∧
    IndexMoved (dagSlot g i) (dagSlot g m) s.cpu t.cpu

/-- The window invariant: an index inside its window, moved by at most the length, stays inside (41_dag_memory.md
R143). -/
def Obligations.IndexStaysInItsWindow : Prop :=
  ∀ (k m : Fin 8) (c : Cpu), c.WindowsFit → 0 < c.l[k].toNat → c.base[k].toNat ≤ c.i[k].toNat →
    c.i[k].toNat < c.base[k].toNat + c.l[k].toNat → c.m[m].toInt ≤ c.l[k].toNat → -(c.l[k].toNat : Int) ≤ c.m[m].toInt →
    let d := Cpu.dagUpdate k m c
    d.base[k].toNat ≤ d.i[k].toNat ∧ d.i[k].toNat < d.base[k].toNat + d.l[k].toNat

/-- With length 0 the index moves linearly modulo 2^14, whatever BASE holds (41_dag_memory.md R146). -/
def Obligations.LengthZeroIsLinear : Prop :=
  ∀ (k m : Fin 8) (c : Cpu), c.l[k] = 0 → (Cpu.dagUpdate k m c).i[k] = c.i[k] + c.m[m]

/-- The address of an access through a generator: bit-reversed for a data access of DAG1 while BIT_REV is 1, the index
itself otherwise (41_dag_memory.md R141). -/
def Obligations.BitReversedAddress : Prop :=
  ∀ (k : Fin 8) (c : Cpu),
    (k.val < 4 → c.bitRev = true → ∀ j, j < 14 → (c.dmAddress k).getLsbD j = c.i[k].getLsbD (13 - j)) ∧
    (4 ≤ k.val ∨ c.bitRev = false → c.dmAddress k = c.i[k]) ∧ c.pmAddress k = c.i[k]

/-- The stores that carry no computation (storeDirect, storeImm): the word at the address, widened as a read of the
register is, and no other byte of either memory; storeImm then moves its index (41_dag_memory.md R149, R150). -/
def Obligations.PlainStores : Prop :=
  (∀ (addr : Addr) (src : Slot) (s : State), ∃ t, exec (.storeDirect addr src) s = .next t ∧
    DmStored addr (regRead src s.cpu) s t ∧ PmKept s t ∧ t.cpu = s.cpu ∧
    OneAccess (.dmWrite addr (regRead src s.cpu)) s t) ∧
  ∀ (g : Gen) (data : Word) (i m : BitVec 2) (s : State), ∃ t, exec (.storeImm g data i m) s = .next t ∧
    DmStored (s.cpu.dmAddress (dagSlot g i)) data s t ∧ PmKept s t ∧
    IndexMoved (dagSlot g i) (dagSlot g m) s.cpu t.cpu ∧ OneAccess (.dmWrite (s.cpu.dmAddress (dagSlot g i)) data) s t

/-! ### Multifunction instructions -/

/-- A compute or shift part with a register move (computeMove, shiftMove): the part does what its instruction of its
own does, and the register moved has its value from before it (46_multifunction.md R260, R261, R267). -/
def Obligations.ComputeWithMove : Prop :=
  (∀ (z : Dest) (amf : Amf) (yop : BitVec 2) (xop : BitVec 3) (ddreg sdreg : BitVec 4) (s : State),
    ∃ u t, exec (condCompute z amf yop xop .always) s = .next u ∧
      exec (.computeMove z amf yop xop ddreg sdreg) s = .next t ∧ OnlyCpu s t ∧
      SlotWritten ⟨0, ddreg⟩ (regRead ⟨0, sdreg⟩ s.cpu) u.cpu t.cpu) ∧
  ∀ (sf : ShFn) (xop : BitVec 3) (ddreg sdreg : BitVec 4) (s : State),
    ∃ u t, exec (condShift sf xop .always) s = .next u ∧ exec (.shiftMove sf xop ddreg sdreg) s = .next t ∧
      OnlyCpu s t ∧ SlotWritten ⟨0, ddreg⟩ (regRead ⟨0, sdreg⟩ s.cpu) u.cpu t.cpu

/-- A part with a data memory read (dmRead, dmReadAlu, dmReadMac8to15, dmReadMac4to7, dmReadMac2to3, dmReadMac1,
shiftDmRead): the part, then the read at the address of the index as it was, the move of the index, and the write of
the register (46_multifunction.md R262, R268; 41_dag_memory.md R142, R151). -/
def Obligations.ComputeWithDmRead : Prop :=
  ∀ (g : Gen) (dreg : BitVec 4) (i m : BitVec 2) (s : State),
    let a := s.cpu.dmAddress (dagSlot g i)
    let done := fun u t : State => ∃ c, IndexMoved (dagSlot g i) (dagSlot g m) u.cpu c ∧
      SlotWritten ⟨0, dreg⟩ (s.dm.dmWord a) c t.cpu ∧ DmKept s t ∧ PmKept s t ∧ OneAccess (.dmRead a) s t
    (∀ (z : Dest) (amf : Amf) (yop : BitVec 2) (xop : BitVec 3), ∃ u t,
      exec (condCompute z amf yop xop .always) s = .next u ∧
      exec (computeDmRead g z amf yop xop dreg i m) s = .next t ∧ done u t) ∧
    ∀ (sf : ShFn) (xop : BitVec 3), ∃ u t, exec (condShift sf xop .always) s = .next u ∧
      exec (.shiftDmRead g sf xop dreg i m) s = .next t ∧ done u t

/-- A part with a data memory write (dmWrite, dmWriteAlu, dmWriteMac8to15, dmWriteMac4to7, dmWriteMac2to3,
dmWriteMac1, shiftDmWrite): the value stored is the register's from before the part, at the address of the index as it
was (46_multifunction.md R260, R263, R268; 41_dag_memory.md R142, R151). -/
def Obligations.ComputeWithDmWrite : Prop :=
  ∀ (g : Gen) (dreg : BitVec 4) (i m : BitVec 2) (s : State),
    let a := s.cpu.dmAddress (dagSlot g i)
    let v := regRead ⟨0, dreg⟩ s.cpu
    let done := fun u t : State => IndexMoved (dagSlot g i) (dagSlot g m) u.cpu t.cpu ∧ DmStored a v s t ∧ PmKept s t ∧
      OneAccess (.dmWrite a v) s t
    (∀ (z : Dest) (amf : Amf) (yop : BitVec 2) (xop : BitVec 3), ∃ u t,
      exec (condCompute z amf yop xop .always) s = .next u ∧
      exec (computeDmWrite g z amf yop xop dreg i m) s = .next t ∧ done u t) ∧
    ∀ (sf : ShFn) (xop : BitVec 3), ∃ u t, exec (condShift sf xop .always) s = .next u ∧
      exec (.shiftDmWrite g sf xop dreg i m) s = .next t ∧ done u t

/-- A part with a program memory read (pmRead, pmReadAlu, pmReadMac8to15, pmReadMac4to7, pmReadMac2to3, pmReadMac1,
shiftPmRead): the payload goes to the register, the tag to PX (46_multifunction.md R264, R269; 41_dag_memory.md R144,
R151). -/
def Obligations.ComputeWithPmRead : Prop :=
  ∀ (dreg : BitVec 4) (i m : BitVec 2) (s : State),
    let a := s.cpu.i[dagSlot .dag2 i]
    let w := s.pm.pmWord a
    let done := fun u t : State => ∃ c,
      IndexMoved (dagSlot .dag2 i) (dagSlot .dag2 m) { u.cpu with px := w.extractLsb' 0 8 } c ∧
      SlotWritten ⟨0, dreg⟩ (w.extractLsb' 8 16) c t.cpu ∧ DmKept s t ∧ PmKept s t ∧ OneAccess (.pmRead a) s t
    (∀ (z : Dest) (amf : Amf) (yop : BitVec 2) (xop : BitVec 3), ∃ u t,
      exec (condCompute z amf yop xop .always) s = .next u ∧
      exec (computePmRead z amf yop xop dreg i m) s = .next t ∧ done u t) ∧
    ∀ (sf : ShFn) (xop : BitVec 3), ∃ u t, exec (condShift sf xop .always) s = .next u ∧
      exec (.shiftPmRead sf xop dreg i m) s = .next t ∧ done u t

/-- A part with a program memory write (pmWrite, pmWriteAlu, pmWriteMac8to15, pmWriteMac4to7, pmWriteMac2to3,
pmWriteMac1, shiftPmWrite): the word stored is the register's old value with PX as its tag (46_multifunction.md R260,
R265, R269; 41_dag_memory.md R145, R151). -/
def Obligations.ComputeWithPmWrite : Prop :=
  ∀ (dreg : BitVec 4) (i m : BitVec 2) (s : State),
    let a := s.cpu.i[dagSlot .dag2 i]
    let w : PWord := regRead ⟨0, dreg⟩ s.cpu ++ s.cpu.px
    let done := fun u t : State => IndexMoved (dagSlot .dag2 i) (dagSlot .dag2 m) u.cpu t.cpu ∧ PmStored a w s t ∧
      DmKept s t ∧ OneAccess (.pmWrite a w) s t
    (∀ (z : Dest) (amf : Amf) (yop : BitVec 2) (xop : BitVec 3), ∃ u t,
      exec (condCompute z amf yop xop .always) s = .next u ∧
      exec (computePmWrite z amf yop xop dreg i m) s = .next t ∧ done u t) ∧
    ∀ (sf : ShFn) (xop : BitVec 3), ∃ u t, exec (condShift sf xop .always) s = .next u ∧
      exec (.shiftPmWrite sf xop dreg i m) s = .next t ∧ done u t

/-- The dual memory read (dualRead): the compute part on the old registers, the data read before the program read,
each with the move of its own index, PX loaded, and then the two registers (46_multifunction.md R266; 20_memory.md
R93). -/
def Obligations.ComputeWithDualRead : Prop :=
  ∀ (pd dd : BitVec 2) (amf : Amf) (yop : BitVec 2) (xop : BitVec 3) (pmi pmm dmi dmm : BitVec 2) (s : State),
    let da := s.cpu.dmAddress (dagSlot .dag1 dmi)
    let pa := s.cpu.i[dagSlot .dag2 pmi]
    let w := s.pm.pmWord pa
    ∃ u t c₁ c₂ c₃, exec (condCompute .primary amf yop xop .always) s = .next u ∧
      exec (.dualRead pd dd amf yop xop pmi pmm dmi dmm) s = .next t ∧
      IndexMoved (dagSlot .dag1 dmi) (dagSlot .dag1 dmm) u.cpu c₁ ∧
      IndexMoved (dagSlot .dag2 pmi) (dagSlot .dag2 pmm) { c₁ with px := w.extractLsb' 0 8 } c₂ ∧
      SlotWritten ⟨0, BitVec.ofNat 4 dd.toNat⟩ (s.dm.dmWord da) c₂ c₃ ∧
      SlotWritten ⟨0, BitVec.ofNat 4 (4 + pd.toNat)⟩ (w.extractLsb' 8 16) c₃ t.cpu ∧ DmKept s t ∧ PmKept s t ∧
      t.bus = s.bus ++ [.dmRead da, .pmRead pa] ∧ t.acks = s.acks ∧ t.irqCallback = s.irqCallback ∧
      t.evalReq = s.evalReq

/-! ### Program flow -/

/-- NOP, the four reserved top bytes and the reserved immediate shifts (nop, reserved01, reserved02, reserved03,
reserved08, shiftImmReserved) change nothing (47_program_flow.md R283, R293; 45_shifter.md R249). -/
def Obligations.NopsChangeNothing : Prop :=
  ∀ s : State, exec .nop s = .next s ∧ exec .reserved01 s = .next s ∧ exec .reserved02 s = .next s ∧
    exec .reserved03 s = .next s ∧ exec .reserved08 s = .next s ∧ exec .shiftImmReserved s = .next s

/-- Jumps and calls (jump, jumpInd, call, callInd): with the condition true PC is the target; a call first pushes PC
as the step left it, and with a full stack the push is dropped, its OVER bit set, and the jump is made all the same;
nothing else changes (47_program_flow.md R284 to R287). -/
def Obligations.JumpsAndCalls : Prop :=
  ∀ (cond : Cond) (s : State),
    (∀ addr : Addr, CompletesIf (.jump addr cond) cond s fun c d => d = { c with pc := addr }) ∧
    (∀ i : BitVec 2, CompletesIf (.jumpInd i cond) cond s fun c d => d = { c with pc := c.i[dagSlot .dag2 i] }) ∧
    (∀ addr : Addr, CompletesIf (.call addr cond) cond s fun c d =>
      d.pc = addr ∧ PcPushed c.pc c { d with pc := c.pc }) ∧
    ∀ i : BitVec 2, CompletesIf (.callInd i cond) cond s fun c d =>
      d.pc = c.i[dagSlot .dag2 i] ∧ PcPushed c.pc c { d with pc := c.pc }

/-- RTS: with the condition true PC takes the popped address, slot 0 of an empty stack. After a call that found room,
RTS brings PC back to the address after the call, and the PC stack to its depth and entries (47_program_flow.md R285,
R289; 10_state.md R43, R44). -/
def Obligations.ReturnFromSubroutine : Prop :=
  (∀ (cond : Cond) (s : State), CompletesIf (.rts cond) cond s fun c d =>
    Delivers c.pcStk d.pc ∧ PcPopped c { d with pc := c.pc }) ∧
  ∀ (addr : Addr) (s : State), s.cpu.pcStk.sp.val < 16 → s.cpu.emptyBitsAgree = true →
    ∃ u t, exec (.call addr .always) s = .next u ∧ exec (.rts .always) u = .next t ∧
      t.cpu = { s.cpu with pcStk := t.cpu.pcStk } ∧ t.cpu.pcStk.sp = s.cpu.pcStk.sp ∧
      ∀ k, k < s.cpu.pcStk.sp.val → t.cpu.pcStk.slots[k]? = s.cpu.pcStk.slots[k]?

/-- RTI: with the condition true PC takes the address popped from the PC stack, and MSTAT, IMASK and ASTAT the triple
popped from the status stack; an evaluation of interrupts is asked for; nothing else changes (47_program_flow.md R290;
10_state.md R46). -/
def Obligations.ReturnFromInterruptInstruction : Prop :=
  ∀ (cond : Cond) (s : State), ∃ t, exec (.rti cond) s = .next t ∧ DmKept s t ∧ PmKept s t ∧ t.bus = s.bus ∧
    t.acks = s.acks ∧ t.irqCallback = s.irqCallback ∧
    let c := (evalCond cond s.cpu).2
    ((evalCond cond s.cpu).1 = false → t.cpu = c ∧ t.evalReq = s.evalReq) ∧
    ((evalCond cond s.cpu).1 = true → t.evalReq = true ∧ Delivers c.pcStk t.cpu.pc ∧
      Delivers c.statStk ⟨t.cpu.mstat, t.cpu.imask, t.cpu.astat⟩ ∧
      t.cpu = { c with
        pc := t.cpu.pc, pcStk := t.cpu.pcStk, statStk := t.cpu.statStk, sstat := t.cpu.sstat
        mstat := t.cpu.mstat, imask := t.cpu.imask, astat := t.cpu.astat } ∧
      Popped c.pcStk t.cpu.pcStk ∧ Popped c.statStk t.cpu.statStk ∧
      PopFlags 0 c.pcStk.sp.val c.sstat t.cpu.sstat ∧ PopFlags 4 c.statStk.sp.val c.sstat t.cpu.sstat ∧
      StackFlagsKept 2 c.sstat t.cpu.sstat ∧ StackFlagsKept 6 c.sstat t.cpu.sstat)

/-- DO UNTIL: the end address with its termination code is pushed on the loop stack, PC as the step left it on the PC
stack, each push judged on its own; nothing else changes (47_program_flow.md R291). -/
def Obligations.DoUntilOpensALoop : Prop :=
  ∀ (addr : Addr) (term : Cond) (s : State), ∃ t, exec (.doUntil addr term) s = .next t ∧ OnlyCpu s t ∧
    let c := s.cpu
    let d := t.cpu
    d = { c with loopStk := d.loopStk, pcStk := d.pcStk, sstat := d.sstat } ∧ Pushed ⟨addr, term⟩ c.loopStk d.loopStk ∧
    Pushed c.pc c.pcStk d.pcStk ∧ PushFlags 6 (decide (c.loopStk.sp.val = 4)) c.sstat d.sstat ∧
    PushFlags 0 (decide (c.pcStk.sp.val = 16)) c.sstat d.sstat ∧ StackFlagsKept 2 c.sstat d.sstat ∧
    StackFlagsKept 4 c.sstat d.sstat

/-- Stack control: each field that asks for it pops its stack (PC stack dropped, loop stack, counter stack into CNTR)
or pushes or pops the status stack; what no field asks for is as it was; a status pop asks for an evaluation of
interrupts (42_stack_control.md R160). -/
def Obligations.StackControl : Prop :=
  ∀ (pp lp cp : Bool) (spp : BitVec 2) (s : State), ∃ t, exec (.stackControl pp lp cp spp) s = .next t ∧ DmKept s t ∧
    PmKept s t ∧ t.bus = s.bus ∧ t.acks = s.acks ∧ t.irqCallback = s.irqCallback ∧ t.evalReq = (s.evalReq || spp == 3) ∧
    let c := s.cpu
    let d := t.cpu
    d = { c with
      pcStk := d.pcStk, loopStk := d.loopStk, cntrStk := d.cntrStk, cntr := d.cntr, statStk := d.statStk
      mstat := d.mstat, imask := d.imask, astat := d.astat, sstat := d.sstat } ∧
    (if pp then Popped c.pcStk d.pcStk ∧ PopFlags 0 c.pcStk.sp.val c.sstat d.sstat
      else d.pcStk = c.pcStk ∧ StackFlagsKept 0 c.sstat d.sstat) ∧
    (if lp then Popped c.loopStk d.loopStk ∧ PopFlags 6 c.loopStk.sp.val c.sstat d.sstat
      else d.loopStk = c.loopStk ∧ StackFlagsKept 6 c.sstat d.sstat) ∧
    (if cp then Popped c.cntrStk d.cntrStk ∧ Delivers c.cntrStk d.cntr ∧ PopFlags 2 c.cntrStk.sp.val c.sstat d.sstat
      else d.cntrStk = c.cntrStk ∧ d.cntr = c.cntr ∧ StackFlagsKept 2 c.sstat d.sstat) ∧
    (spp ≠ 3 → d.mstat = c.mstat ∧ d.imask = c.imask ∧ d.astat = c.astat) ∧
    (spp = 3 → Popped c.statStk d.statStk ∧ Delivers c.statStk ⟨d.mstat, d.imask, d.astat⟩ ∧
      PopFlags 4 c.statStk.sp.val c.sstat d.sstat) ∧
    (spp = 2 → Pushed ⟨c.mstat, c.imask, c.astat⟩ c.statStk d.statStk ∧
      PushFlags 4 (decide (c.statStk.sp.val = 4)) c.sstat d.sstat) ∧
    (spp ≠ 2 → spp ≠ 3 → d.statStk = c.statStk ∧ StackFlagsKept 4 c.sstat d.sstat)

/-! ### Interrupts -/

/-- A line is takeable when its mask bit is 1 and it is pending: by its latch when edge-sensitive, by its level
otherwise; of several takeable lines the highest-numbered is taken, and one only (60_exceptions.md R314, R315). -/
def Obligations.HighestTakeableLineWins : Prop :=
  ∀ s : State,
    let takeable := fun n : Fin 4 => s.cpu.imask.getLsbD n &&
      (if s.cpu.icntl.getLsbD n then s.cpu.irqLatch.getLsbD n else s.cpu.irqLine.getLsbD n)
    (∀ n : Fin 4, takeable n = true → (∀ m : Fin 4, n < m → takeable m = false) →
      evaluateInterrupts s = takeInterrupt n s) ∧
    ((∀ n : Fin 4, takeable n = false) → evaluateInterrupts s = s)

/-- Interrupt entry: the latch of the line is cleared, PC and the triple (MSTAT, IMASK, ASTAT) are pushed, PC is the
line's number, IMASK loses every line, or with NEST the line and those below it; the callback is called once with the
line's number if one is registered, and not otherwise; nothing else changes. Registering or removing a callback changes
nothing but the registration (60_exceptions.md R317, R321). -/
def Obligations.InterruptEntry : Prop :=
  ∀ (n : Fin 4) (s : State),
    let c := s.cpu
    let t := takeInterrupt n s
    let d := t.cpu
    DmKept s t ∧ PmKept s t ∧ t.bus = s.bus ∧ t.evalReq = s.evalReq ∧ t.irqCallback = s.irqCallback ∧
    t.acks = (if s.irqCallback then s.acks ++ [n] else s.acks) ∧
    d = { c with
      irqLatch := d.irqLatch, pcStk := d.pcStk, statStk := d.statStk, sstat := d.sstat, pc := d.pc, imask := d.imask } ∧
    d.pc.toNat = n.val ∧
    (∀ k : Fin 4, d.irqLatch.getLsbD k = (decide (k ≠ n) && c.irqLatch.getLsbD k)) ∧
    Pushed c.pc c.pcStk d.pcStk ∧ Pushed ⟨c.mstat, c.imask, c.astat⟩ c.statStk d.statStk ∧
    (∀ k : Fin 4, d.imask.getLsbD k = (c.icntl.getLsbD 4 && decide (n < k) && c.imask.getLsbD k)) ∧
    PushFlags 0 (decide (c.pcStk.sp.val = 16)) c.sstat d.sstat ∧
    PushFlags 4 (decide (c.statStk.sp.val = 4)) c.sstat d.sstat ∧
    StackFlagsKept 2 c.sstat d.sstat ∧ StackFlagsKept 6 c.sstat d.sstat ∧
    ∀ b, let r := setIrqVectorCallback b s
      r.cpu = c ∧ r.dm = s.dm ∧ r.pm = s.pm ∧ r.irqCallback = b ∧ r.acks = [] ∧
        (takeInterrupt n r).acks = if b then [n] else []

/-- RTI right after an interrupt entry that found room on both stacks restores PC, MSTAT, IMASK, ASTAT and the depth
of both stacks; of the Machine State only the latch of the line, which is then clear, and slots above the pointers can
differ (60_exceptions.md R317, R318). -/
def Obligations.RtiUndoesInterruptEntry : Prop :=
  ∀ (n : Fin 4) (s : State), s.cpu.pcStk.sp.val < 16 → s.cpu.statStk.sp.val < 4 → s.cpu.emptyBitsAgree = true →
    ∃ t, exec (.rti .always) (takeInterrupt n s) = .next t ∧ t.evalReq = true ∧
      t.cpu = { s.cpu with irqLatch := t.cpu.irqLatch, pcStk := t.cpu.pcStk, statStk := t.cpu.statStk } ∧
      (∀ k : Fin 4, t.cpu.irqLatch.getLsbD k = (decide (k ≠ n) && s.cpu.irqLatch.getLsbD k)) ∧
      t.cpu.pcStk.sp = s.cpu.pcStk.sp ∧ t.cpu.statStk.sp = s.cpu.statStk.sp ∧
      (∀ k, k < s.cpu.pcStk.sp.val → t.cpu.pcStk.slots[k]? = s.cpu.pcStk.slots[k]?) ∧
      ∀ k, k < s.cpu.statStk.sp.val → t.cpu.statStk.slots[k]? = s.cpu.statStk.slots[k]?

/-- A step leaves what its instruction leaves, or that with one interrupt entry after it, of an enabled line; the
entry only when the instruction is an evaluation point (60_exceptions.md R315, R316). -/
def Obligations.InterruptsOnlyAtEvaluationPoints : Prop :=
  ∀ s t : State, step s = .next t →
    ∃ u, exec (decode (s.pm.pmWord s.cpu.pc)) (enterInstr s) = .next u ∧
      let v := { u with evalReq := false }
      (t = v ∨ canEvaluate (decode (s.pm.pmWord s.cpu.pc)) = true ∧
        ∃ n : Fin 4, v.cpu.imask.getLsbD n = true ∧ t = takeInterrupt n v)

/-- Line assertion: the line takes the level given; a rising edge sets the latch, which nothing else here clears; an
asserted line is an evaluation point; a line outside 0 to 3 does nothing (60_exceptions.md R312, R313). -/
def Obligations.LineAssertion : Prop :=
  ∀ (n : Nat) (asserted : Bool) (s : State),
    (4 ≤ n → assertIrqLine n asserted s = beginHostCall s) ∧
    (n < 4 → ∃ d : Cpu, d = { s.cpu with irqLine := d.irqLine, irqLatch := d.irqLatch } ∧
      (∀ k : Fin 4, d.irqLine.getLsbD k = if k.val = n then asserted else s.cpu.irqLine.getLsbD k) ∧
      (∀ k : Fin 4, d.irqLatch.getLsbD k =
        (s.cpu.irqLatch.getLsbD k || (decide (k.val = n) && asserted && !s.cpu.irqLine.getLsbD k))) ∧
      assertIrqLine n asserted s =
        if asserted then evaluateInterrupts { beginHostCall s with cpu := d } else { beginHostCall s with cpu := d })

/-! ### What no instruction does -/

/-- What no instruction changes: the bank that is not live when it begins, not even if it switches banks; the
interrupt lines and latches, which are the host's and the interrupt entry's; and it gives no acknowledge itself and
registers no callback (70_reset_and_hazards.md R347; 10_state.md R22, R34; 60_exceptions.md R313, R321). -/
def Obligations.OtherBankAndInterruptLinesAreNeverChanged : Prop :=
  ∀ (i : Instr) (s t : State), exec i s = .next t →
    (if s.cpu.mstat.getLsbD 0 then t.cpu.bank0 = s.cpu.bank0 else t.cpu.bank1 = s.cpu.bank1) ∧
    t.cpu.irqLine = s.cpu.irqLine ∧ t.cpu.irqLatch = s.cpu.irqLatch ∧ t.acks = s.acks ∧
    t.irqCallback = s.irqCallback

/-- Only the storing instructions change a memory: every byte of data memory and of program memory reads as before
after any other instruction (70_reset_and_hazards.md R347; 20_memory.md R88). -/
def Obligations.OnlyStoresChangeMemory : Prop :=
  ∀ (i : Instr) (s t : State), exec i s = .next t →
    (storesDm i = false → DmKept s t) ∧ (storesPm i = false → PmKept s t)

/-! ### The host's runs and accesses -/

/-- A run makes one step for each cycle of its budget: a budget of 0 or less makes none, a budget of 1 is one step, a
budget of N + 1 is a step and then a run for N. So a run for N consumes N, and a run for `a` followed by one for `b`
is a run for `a + b` (70_reset_and_hazards.md R343, R344). -/
def Obligations.RunsAddUp : Prop :=
  (∀ (n : Int) (s : State), n ≤ 0 → execute n s = (.next s, 0)) ∧
  (∀ s : State, execute 1 s = (step s, 1)) ∧
  (∀ (n : Int) (s t : State), 0 ≤ n → step s = .next t → execute (n + 1) s = ((execute n t).1, n + 1)) ∧
  (∀ (n : Int) (s : State), 0 ≤ n → (execute n s).2 = n) ∧
  ∀ (a b : Int) (s : State), 0 ≤ a → 0 ≤ b →
    ∃ t, (execute a s).1 = .next t ∧ (execute (a + b) s).1 = (execute b t).1 ∧ (execute b t).2 + a = (execute (a + b) s).2

/-- The host's register access has the effects of the same access by an instruction, with the evaluation of interrupts
after IMASK and ICNTL; a group or an index out of range is an invalid slot (70_reset_and_hazards.md R350). -/
def Obligations.HostRegisterAccess : Prop :=
  (∀ (slot : Slot) (v : Word) (s : State), readRegister slot.group.toNat slot.index.toNat s = regRead slot s.cpu ∧
    ∃ w : State, SlotWritten slot v s.cpu w.cpu ∧ w = { beginHostCall s with cpu := w.cpu } ∧
      writeRegister slot.group.toNat slot.index.toNat v s =
        if controlsInterrupts slot then evaluateInterrupts w else w) ∧
  ∀ (g i : Nat) (v : Word) (s : State), 4 ≤ g ∨ 16 ≤ i →
    readRegister g i s = 0 ∧ writeRegister g i v s = beginHostCall s

/-- `set_state` of a snapshot whose EMPTY bits agree replaces the whole Machine State and nothing else: the memories
and the registered callback stay, no access is made and no interrupt is taken. So `set_state(get_state())` changes no
run. That a snapshot which breaks the EMPTY-bit invariant is refused is the model's reading of "refuse" (log 13), and
that no other snapshot is, its choice (log 17) (70_reset_and_hazards.md R351; 60_exceptions.md R323; 10_state.md R50;
93_implementation_defined.md U15). -/
def Obligations.SnapshotRoundTrip : Prop :=
  (∀ (c : Cpu) (s : State), c.emptyBitsAgree = true →
    ∃ t, setState c s = .next t ∧ t.cpu = c ∧ t.dm = s.dm ∧ t.pm = s.pm ∧ t.irqCallback = s.irqCallback ∧ t.bus = [] ∧
      t.acks = [] ∧ t.evalReq = false ∧ getState t = c) ∧
  (∀ (s : State) (n : Nat), s.cpu.emptyBitsAgree = true →
    ∃ t, setState (getState s) s = .next t ∧ t.cpu = s.cpu ∧ t.dm = s.dm ∧ t.pm = s.pm ∧
      stepN (n + 1) t = stepN (n + 1) s) ∧
  ∀ (c : Cpu) (s : State), c.emptyBitsAgree = false → setState c s = .refused .snapshotBreaksInvariant

end Statements
end

