-- ==== Sys2Proof/Laws/Bits.lean ====
section
/-!
SUPPORT. The laws of the bit helpers.
-/
namespace Sys2Proof.Machine

/-- Writing one bit: that bit is the one written, every other bit is as it was (00_scope.md R10). -/
@[simp] theorem setBit_getLsbD {w : Nat} (v : BitVec w) (i j : Nat) (b : Bool) :
    (setBit v i b).getLsbD j = if i = j ∧ j < w then b else v.getLsbD j := by
  by_cases hj : j < w
  · unfold setBit
    by_cases hij : i = j
    · cases b <;> simp [hij, hj]
    · cases b <;> simp [hij, Ne.symm hij, hj]
  · simp [hj, BitVec.getLsbD_of_ge _ _ (Nat.le_of_not_lt hj)]

@[inherit_doc setBit_getLsbD, simp] theorem setBit_getElem {w : Nat} (v : BitVec w) (i j : Nat) (b : Bool) (h : j < w) :
    (setBit v i b)[j] = if i = j then b else v[j] := by
  rw [← BitVec.getLsbD_eq_getElem h, setBit_getLsbD, ← BitVec.getLsbD_eq_getElem h]
  simp [h]

/-- Bits written at different places commute. -/
theorem setBit_comm {w : Nat} (v : BitVec w) {i j : Nat} (h : i ≠ j) (a b : Bool) :
    setBit (setBit v i a) j b = setBit (setBit v j b) i a := by
  apply BitVec.eq_of_getLsbD_eq
  intro k hk
  simp only [setBit_getLsbD]
  split <;> split <;> simp_all

/-- The last write of a bit counts. -/
@[simp] theorem setBit_setBit {w : Nat} (v : BitVec w) (i : Nat) (a b : Bool) :
    setBit (setBit v i a) i b = setBit v i b := by
  apply BitVec.eq_of_getLsbD_eq
  intro k hk
  simp only [setBit_getLsbD]
  split <;> simp_all

/-- Bit `j` of the reversed address is bit `13 - j` of the address (41_dag_memory.md R141). -/
theorem rev14_getLsbD (v : Addr) (j : Nat) (h : j < 14) : (rev14 v).getLsbD j = v.getLsbD (13 - j) := by
  unfold rev14
  rw [BitVec.getLsbD_reverse, BitVec.getMsbD_eq_getLsbD]
  simp [h]

/-- The count stops within its fuel. -/
theorem countEqual_le (x : Word) (b : Bool) (n : Nat) : countEqual x b n ≤ n := by
  induction n with
  | zero => simp [countEqual]
  | succ n ih => unfold countEqual; split <;> omega

/-- `coverFrom` answers within its fuel. -/
theorem coverFrom_le (len fuel n : Nat) : coverFrom len fuel n ≤ n + fuel := by
  induction fuel generalizing n with
  | zero => simp [coverFrom]
  | succ f ih => unfold coverFrom; split; · omega
                 · have := ih (n + 1); omega

/-- `coverFrom` answers the smallest exponent from `n` on that covers the length, if its fuel reaches one. -/
theorem coverFrom_spec (len fuel n : Nat) (h : len ≤ 2 ^ (n + fuel)) :
    len ≤ 2 ^ coverFrom len fuel n ∧ ∀ k, n ≤ k → k < coverFrom len fuel n → 2 ^ k < len := by
  induction fuel generalizing n with
  | zero => exact ⟨by simpa [coverFrom] using h, fun k h1 h2 => by simp [coverFrom] at h2; omega⟩
  | succ f ih =>
    unfold coverFrom
    split
    · exact ⟨‹_›, fun k h1 h2 => by omega⟩
    · rename_i hlt
      have := ih (n + 1) (by rwa [show n + 1 + f = n + (f + 1) by omega])
      refine ⟨this.1, fun k h1 h2 => ?_⟩
      rcases Nat.eq_or_lt_of_le h1 with rfl | h3
      · omega
      · exact this.2 k h3 h2

/-- Masking with LMASK rounds down to a multiple of the smallest power of two that covers the length (10_state.md R24). -/
theorem and_lmask_toNat (index len : Addr) :
    ∃ n, len.toNat ≤ 2 ^ n ∧ (∀ k, k < n → 2 ^ k < len.toNat) ∧
      (index &&& lmask len).toNat = index.toNat / 2 ^ n * 2 ^ n := by
  have hs := coverFrom_spec len.toNat 14 0 (by have := len.isLt; omega)
  refine ⟨coverFrom len.toNat 14 0, hs.1, fun k => hs.2 k (Nat.zero_le k), ?_⟩
  unfold lmask
  generalize coverFrom len.toNat 14 0 = n
  have h : index &&& ~~~BitVec.ofNat 14 (2 ^ n - 1) = (index >>> n) <<< n := by
    apply BitVec.eq_of_getLsbD_eq
    intro j hj
    have ones : (BitVec.ofNat 14 (2 ^ n - 1)).getLsbD j = decide (j < n) := by
      rw [BitVec.getLsbD_ofNat, Nat.testBit_two_pow_sub_one]; simp [hj]
    rw [BitVec.getLsbD_and, BitVec.getLsbD_not, ones, BitVec.getLsbD_shiftLeft, BitVec.getLsbD_ushiftRight]
    by_cases hn : j < n
    · simp [hn]
    · simp [hj, hn, show n + (j - n) = j by omega]
  rw [h, BitVec.toNat_shiftLeft, BitVec.toNat_ushiftRight, Nat.shiftLeft_eq, Nat.shiftRight_eq_div_pow]
  exact Nat.mod_eq_of_lt (Nat.lt_of_le_of_lt (Nat.div_mul_le_self _ _) index.isLt)

end Sys2Proof.Machine
end

