-- ==== Sys2Proof/Laws/Encoding.lean ====
section
/-!
SUPPORT. Fields put into a word and read out of it, and the codes of the enumerated fields (30_encoding.md R102).
-/
namespace Sys2Proof

/-! ### Codes -/

@[simp] theorem Cond.ofBits_bits (c : Cond) : Cond.ofBits c.bits = c := by cases c <;> rfl
@[simp] theorem AluFn.ofBits_bits (f : AluFn) : AluFn.ofBits f.bits = f := by cases f <;> rfl
@[simp] theorem MacFn.ofBits_bits (f : MacFn) : MacFn.ofBits f.bits = f := by cases f <;> rfl
@[simp] theorem ShFn.ofBits_bits (f : ShFn) : ShFn.ofBits f.bits = f := by cases f <;> rfl
@[simp] theorem Amf.ofBits_bits (f : Amf) : Amf.ofBits f.bits = f := by
  cases f with
  | mac f => cases f <;> rfl
  | alu f => cases f <;> rfl
@[simp] theorem Dest.ofBits_bits (z : Dest) : Dest.ofBits z.bits = z := by cases z <;> rfl
@[simp] theorem Gen.ofBits_bits (g : Gen) : Gen.ofBits g.bits = g := by cases g <;> rfl

/-! ### Fields -/

/-- A field of a word put together from two: the fields of the two put together. -/
@[simp] theorem fieldAt_or (a b : PWord) (lo len : Nat) : fieldAt (a ||| b) lo len = fieldAt a lo len ||| fieldAt b lo len := by
  simp [fieldAt, BitVec.extractLsb'_or]

/-- A field read where it was put. -/
@[simp] theorem fieldAt_putAt_same {n : Nat} (lo : Nat) (v : BitVec n) (h : lo + n ≤ 24) : fieldAt (putAt lo v) lo n = v := by
  apply BitVec.eq_of_getLsbD_eq
  intro i hi
  simp only [fieldAt, putAt, BitVec.getLsbD_extractLsb', BitVec.getLsbD_shiftLeft, BitVec.getLsbD_setWidth]
  have h1 : lo + i < 24 := by omega
  have h2 : ¬lo + i < lo := by omega
  simp [hi, h1, show i < 24 by omega]

/-- A field read below where another was put is zero. -/
theorem fieldAt_putAt_below {n : Nat} (lo : Nat) (v : BitVec n) (lo' len : Nat) (h : lo' + len ≤ lo) :
    fieldAt (putAt lo v) lo' len = 0 := by
  apply BitVec.eq_of_getLsbD_eq
  intro i hi
  simp only [fieldAt, putAt, BitVec.getLsbD_extractLsb', BitVec.getLsbD_shiftLeft, BitVec.getLsbD_setWidth]
  simp [show lo' + i < lo by omega]

/-- A field read above where another was put is zero. -/
theorem fieldAt_putAt_above {n : Nat} (lo : Nat) (v : BitVec n) (lo' len : Nat) (h : lo + n ≤ lo') :
    fieldAt (putAt lo v) lo' len = 0 := by
  apply BitVec.eq_of_getLsbD_eq
  intro i hi
  simp only [fieldAt, putAt, BitVec.getLsbD_extractLsb', BitVec.getLsbD_shiftLeft, BitVec.getLsbD_setWidth]
  simp [BitVec.getLsbD_of_ge v (lo' + i - lo) (by omega)]

/-- A field put outside the mask is gone under it. -/
theorem putAt_and_mask {n : Nat} (lo : Nat) (v : BitVec n) (m : PWord) (h : fieldAt m lo n = 0) :
    putAt lo v &&& m = 0 := by
  apply BitVec.eq_of_getLsbD_eq
  intro i hi
  simp only [putAt, BitVec.getLsbD_and, BitVec.getLsbD_shiftLeft, BitVec.getLsbD_setWidth]
  by_cases h1 : lo ≤ i ∧ i < lo + n
  · have h2 : (fieldAt m lo n).getLsbD (i - lo) = false := by rw [h]; simp
    simp only [fieldAt, BitVec.getLsbD_extractLsb'] at h2
    have h3 : m.getLsbD i = false := by simpa [show i - lo < n by omega, show lo + (i - lo) = i by omega] using h2
    simp [h3]
  · by_cases h4 : i < lo
    · simp [h4]
    · simp [BitVec.getLsbD_of_ge v (i - lo) (by omega)]

/-- A word put together from two, under a mask. -/
theorem or_and_mask (a b m : PWord) : (a ||| b) &&& m = (a &&& m) ||| (b &&& m) := by
  apply BitVec.eq_of_getLsbD_eq
  intro i hi
  simp [Bool.and_or_distrib_right]

/-! ### What a mask leaves of the word of a format -/

/-- F_CCOND under a mask that covers neither YOP, XOP nor COND. -/
theorem encodeCondCompute_and_mask (z : Dest) (amf : Amf) (yop : BitVec 2) (xop : BitVec 3) (cond : Cond) (m : PWord)
    (h : fieldAt m 11 2 = 0 ∧ fieldAt m 8 3 = 0 ∧ fieldAt m 0 4 = 0) :
    encodeCondCompute z amf yop xop cond &&& m = (0x200000 ||| putAt 18 z.bits ||| putAt 13 amf.bits) &&& m := by
  simp [encodeCondCompute, putCompute, or_and_mask, putAt_and_mask, h, BitVec.or_assoc]

/-- F_SCOND under a mask that covers neither XOP nor COND. -/
theorem encodeCondShift_and_mask (sf : ShFn) (xop : BitVec 3) (cond : Cond) (m : PWord)
    (h : fieldAt m 8 3 = 0 ∧ fieldAt m 0 4 = 0) :
    encodeCondShift sf xop cond &&& m = (0x0E0000 ||| putAt 11 sf.bits) &&& m := by
  simp [encodeCondShift, putShift, or_and_mask, putAt_and_mask, h]

/-- F_SIMM under a mask that covers neither XOP nor EXP. -/
theorem encodeImmShift_and_mask (sf : ShFn) (xop : BitVec 3) (n : BitVec 8) (m : PWord)
    (h : fieldAt m 8 3 = 0 ∧ fieldAt m 0 8 = 0) :
    encodeImmShift sf xop n &&& m = (0x0F0000 ||| putAt 11 sf.bits) &&& m := by
  simp [encodeImmShift, putShift, or_and_mask, putAt_and_mask, h]

/-- F_CPM under a mask that covers of the fields AMF alone. -/
theorem encodePm_and_mask (base : PWord) (z : Dest) (amf : Amf) (yop : BitVec 2) (xop : BitVec 3) (dreg : BitVec 4)
    (i n : BitVec 2) (m : PWord)
    (h : fieldAt m 18 1 = 0 ∧ fieldAt m 11 2 = 0 ∧ fieldAt m 8 3 = 0 ∧ fieldAt m 4 4 = 0 ∧ fieldAt m 2 2 = 0 ∧
      fieldAt m 0 2 = 0) :
    encodePm base z amf yop xop dreg i n &&& m = (base ||| putAt 13 amf.bits) &&& m := by
  simp [encodePm, putCompute, putIM, or_and_mask, putAt_and_mask, h]

/-- F_CDM under a mask that covers of the fields AMF alone. -/
theorem encodeDm_and_mask (base : PWord) (g : Gen) (z : Dest) (amf : Amf) (yop : BitVec 2) (xop : BitVec 3)
    (dreg : BitVec 4) (i n : BitVec 2) (m : PWord)
    (h : fieldAt m 20 1 = 0 ∧ fieldAt m 18 1 = 0 ∧ fieldAt m 11 2 = 0 ∧ fieldAt m 8 3 = 0 ∧ fieldAt m 4 4 = 0 ∧
      fieldAt m 2 2 = 0 ∧ fieldAt m 0 2 = 0) :
    encodeDm base g z amf yop xop dreg i n &&& m = (base ||| putAt 13 amf.bits) &&& m := by
  simp [encodeDm, putCompute, putIM, or_and_mask, putAt_and_mask, h]

end Sys2Proof
end

