-- ==== Sys2Proof/Laws/Memory.lean ====
section
/-!
SUPPORT. The laws of the two memories: a read after a write, every other byte as it was, and the canonical form kept.
-/
namespace Sys2Proof.Machine

theorem Memory.readByte_eraseKey (m : Memory) (a k : Nat) :
    (m.eraseKey a).readByte k = if k = a then unlistedByte else m.readByte k := by
  induction m with
  | nil => simp [Memory.eraseKey, Memory.readByte]
  | cons p rest ih =>
    obtain ⟨b, w⟩ := p
    simp only [Memory.eraseKey, Memory.readByte]
    split_ifs <;> simp_all [Memory.readByte]

theorem Memory.eraseKey_ne {m : Memory} {a : Nat} {p : Host.Cell} (h : p ∈ m.eraseKey a) : p.1 ≠ a := by
  induction m with
  | nil => simp [Memory.eraseKey] at h
  | cons q rest ih =>
    obtain ⟨b, w⟩ := q
    simp only [Memory.eraseKey] at h
    split_ifs at h
    · exact ih h
    · rcases List.mem_cons.mp h with rfl | h
      · rename_i hb; exact fun e => hb e.symm
      · exact ih h

theorem Memory.readByte_insertCell (m : Memory) (a : Nat) (v : Byte) (k : Nat) (h : ∀ p ∈ m, p.1 ≠ a) :
    (Memory.insertCell a v m).readByte k = if k = a then v else m.readByte k := by
  induction m with
  | nil => simp [Memory.insertCell, Memory.readByte]
  | cons p rest ih =>
    obtain ⟨b, w⟩ := p
    have hb : b ≠ a := h (b, w) (by simp)
    have ih := ih fun q hq => h q (by simp [hq])
    simp only [Memory.insertCell]
    split_ifs with h1 h2 h2
    · simp [Memory.readByte, h2]
    · simp [Memory.readByte, h2]
    · subst h2; simp [Memory.readByte, ih, Ne.symm hb]
    · simp [Memory.readByte, ih, h2]

/-- Reading one byte after writing one byte (20_memory.md R84). -/
@[simp] theorem Memory.readByte_writeByte (m : Memory) (a : Nat) (v : Byte) (k : Nat) :
    (m.writeByte a v).readByte k = if k = a then v else m.readByte k := by
  unfold Memory.writeByte
  split_ifs with hv
  · simp [Memory.readByte_eraseKey, *]
  · simp [Memory.readByte_eraseKey, *]
  · rw [Memory.readByte_insertCell _ _ _ _ fun p hp => Memory.eraseKey_ne hp]; simp [*]
  · rw [Memory.readByte_insertCell _ _ _ _ fun p hp => Memory.eraseKey_ne hp]; simp [*, Memory.readByte_eraseKey]

theorem Memory.wfFrom_mono {size lo lo' : Nat} {m : Memory} (hl : lo' ≤ lo) (h : m.wfFrom size lo = true) :
    m.wfFrom size lo' = true := by
  cases m with
  | nil => rfl
  | cons p rest => simp only [Memory.wfFrom, Bool.and_eq_true, decide_eq_true_eq] at h ⊢; exact ⟨⟨⟨by omega, h.1.1.2⟩, h.1.2⟩, h.2⟩

theorem Memory.wfFrom_eraseKey {size lo : Nat} {m : Memory} (a : Nat) (h : m.wfFrom size lo = true) :
    (m.eraseKey a).wfFrom size lo = true := by
  induction m generalizing lo with
  | nil => rfl
  | cons p rest ih =>
    obtain ⟨b, w⟩ := p
    simp only [Memory.wfFrom, Bool.and_eq_true, decide_eq_true_eq] at h
    simp only [Memory.eraseKey]
    split_ifs
    · exact Memory.wfFrom_mono (by omega) (ih h.2)
    · simp only [Memory.wfFrom, Bool.and_eq_true, decide_eq_true_eq]
      exact ⟨h.1, ih h.2⟩

theorem Memory.wfFrom_insertCell {size lo : Nat} {m : Memory} {a : Nat} {v : Byte} (ha : lo ≤ a) (hs : a < size)
    (hv : v ≠ unlistedByte) (hn : ∀ p ∈ m, p.1 ≠ a) (h : m.wfFrom size lo = true) :
    (Memory.insertCell a v m).wfFrom size lo = true := by
  induction m generalizing lo with
  | nil => simp [Memory.insertCell, Memory.wfFrom, ha, hs, hv]
  | cons p rest ih =>
    obtain ⟨b, w⟩ := p
    simp only [Memory.wfFrom, Bool.and_eq_true, decide_eq_true_eq] at h
    simp only [Memory.insertCell]
    split_ifs with hab
    · simp only [Memory.wfFrom, Bool.and_eq_true, decide_eq_true_eq, bne_iff_ne]
      exact ⟨⟨⟨ha, hs⟩, hv⟩, ⟨⟨by omega, h.1.1.2⟩, by simpa using h.1.2⟩, h.2⟩
    · have hb : b ≠ a := hn (b, w) (by simp)
      simp only [Memory.wfFrom, Bool.and_eq_true, decide_eq_true_eq]
      exact ⟨h.1, ih (by omega) (fun q hq => hn q (by simp [hq])) h.2⟩

/-- Writing a byte below the size keeps the canonical form. -/
theorem Memory.wf_writeByte {size : Nat} {m : Memory} {a : Nat} (v : Byte) (hs : a < size) (h : m.wf size = true) :
    (m.writeByte a v).wf size = true := by
  unfold Memory.wf at *
  unfold Memory.writeByte
  split_ifs with hv
  · exact Memory.wfFrom_eraseKey a h
  · exact Memory.wfFrom_insertCell (Nat.zero_le a) hs hv (fun p hp => Memory.eraseKey_ne hp) (Memory.wfFrom_eraseKey a h)

/-! ### Words -/

@[simp] theorem Memory.readByte_setDmWord (m : Memory) (a : Addr) (v : Word) (k : Nat) :
    (m.setDmWord a v).readByte k =
      if k = dmKey a + 1 then v.extractLsb' 0 8 else if k = dmKey a then v.extractLsb' 8 8 else m.readByte k := by
  simp [Memory.setDmWord]

@[simp] theorem Memory.readByte_setPmWord (m : Memory) (a : Addr) (v : PWord) (k : Nat) :
    (m.setPmWord a v).readByte k =
      if k = pmKey a + 2 then v.extractLsb' 0 8 else if k = pmKey a + 1 then v.extractLsb' 8 8
      else if k = pmKey a then v.extractLsb' 16 8 else m.readByte k := by
  simp [Memory.setPmWord]

/-- The two halves of a data word, put together. -/
theorem word_halves (v : Word) : v.extractLsb' 8 8 ++ v.extractLsb' 0 8 = v := by
  apply BitVec.eq_of_getLsbD_eq
  intro i hi
  simp only [BitVec.getLsbD_append, BitVec.getLsbD_extractLsb']
  split
  · simp [*]
  · have : i - 8 < 8 := by omega
    simp [this, show 8 + (i - 8) = i by omega]

/-- The three bytes of a program word, put together. -/
theorem pword_thirds (v : PWord) : v.extractLsb' 16 8 ++ v.extractLsb' 8 8 ++ v.extractLsb' 0 8 = v := by
  apply BitVec.eq_of_getLsbD_eq
  intro i hi
  simp only [BitVec.getLsbD_append, BitVec.getLsbD_extractLsb']
  split
  · simp [*]
  · split
    · have : i - 8 < 8 := by omega
      simp [this, show 8 + (i - 8) = i by omega]
    · have : i - 8 - 8 < 8 := by omega
      simp [this, show 16 + (i - 8 - 8) = i by omega]

/-- A data word read after a data word written: the word written at its address, the old one everywhere else
(20_memory.md R82, R84). -/
@[simp] theorem Memory.dmWord_setDmWord (m : Memory) (a b : Addr) (v : Word) :
    (m.setDmWord a v).dmWord b = if b = a then v else m.dmWord b := by
  simp only [Memory.dmWord, Memory.readByte_setDmWord]
  by_cases h : b = a
  · subst h; simp [word_halves]
  · have : b.toNat ≠ a.toNat := fun e => h (BitVec.eq_of_toNat_eq e)
    have h1 : dmKey b ≠ dmKey a + 1 := by unfold dmKey; omega
    have h2 : dmKey b ≠ dmKey a := by unfold dmKey; omega
    have h3 : dmKey b + 1 ≠ dmKey a := by unfold dmKey; omega
    simp [h, h1, h2, h3]

/-- A program word read after a program word written (20_memory.md R81, R84, R94). -/
@[simp] theorem Memory.pmWord_setPmWord (m : Memory) (a b : Addr) (v : PWord) :
    (m.setPmWord a v).pmWord b = if b = a then v else m.pmWord b := by
  simp only [Memory.pmWord, Memory.readByte_setPmWord]
  by_cases h : b = a
  · subst h; simp [pword_thirds]
  · have : b.toNat ≠ a.toNat := fun e => h (BitVec.eq_of_toNat_eq e)
    have h1 : pmKey b ≠ pmKey a + 2 := by unfold pmKey; omega
    have h2 : pmKey b ≠ pmKey a + 1 := by unfold pmKey; omega
    have h3 : pmKey b ≠ pmKey a := by unfold pmKey; omega
    have h5 : pmKey b + 1 ≠ pmKey a := by unfold pmKey; omega
    have h6 : pmKey b + 2 ≠ pmKey a + 1 := by unfold pmKey; omega
    have h7 : pmKey b + 2 ≠ pmKey a := by unfold pmKey; omega
    simp [h, h1, h2, h3, h5, h6, h7]

/-- Writing a data word keeps the canonical form of data memory. -/
theorem Memory.wf_setDmWord {m : Memory} (a : Addr) (v : Word) (h : m.wf dmBytes = true) :
    (m.setDmWord a v).wf dmBytes = true := by
  have : a.toNat < 2 ^ 14 := a.isLt
  have hs : dmKey a + 1 < dmBytes := by unfold dmKey dmBytes Config.memWords; omega
  exact Memory.wf_writeByte _ hs (Memory.wf_writeByte _ (by omega) h)

/-- Writing a program word keeps the canonical form of program memory. -/
theorem Memory.wf_setPmWord {m : Memory} (a : Addr) (v : PWord) (h : m.wf pmBytes = true) :
    (m.setPmWord a v).wf pmBytes = true := by
  have : a.toNat < 2 ^ 14 := a.isLt
  have hs : pmKey a + 2 < pmBytes := by unfold pmKey pmBytes Config.memWords; omega
  exact Memory.wf_writeByte _ hs (Memory.wf_writeByte _ (by omega) (Memory.wf_writeByte _ (by omega) h))

/-- Nothing is listed after reset, which is the canonical form. -/
theorem State.reset_dm_wf : State.reset.dm.wf dmBytes = true := rfl

@[inherit_doc State.reset_dm_wf] theorem State.reset_pm_wf : State.reset.pm.wf pmBytes = true := rfl

end Sys2Proof.Machine
end

