-- ==== Sys2Proof/Laws/State.lean ====
section
/-!
SUPPORT. One lemma per field per update: what each operation on the Machine State, and each operation on the state,
leaves as it was.
-/
namespace Sys2Proof.Machine

section Updates
variable (c : Cpu)

@[simp] theorem Cpu.setLive_px (b : Bank) : (c.setLive b).px = c.px := by unfold Cpu.setLive; split <;> rfl
@[simp] theorem Cpu.setLive_i (b : Bank) : (c.setLive b).i = c.i := by unfold Cpu.setLive; split <;> rfl
@[simp] theorem Cpu.setLive_m (b : Bank) : (c.setLive b).m = c.m := by unfold Cpu.setLive; split <;> rfl
@[simp] theorem Cpu.setLive_l (b : Bank) : (c.setLive b).l = c.l := by unfold Cpu.setLive; split <;> rfl
@[simp] theorem Cpu.setLive_base (b : Bank) : (c.setLive b).base = c.base := by unfold Cpu.setLive; split <;> rfl
@[simp] theorem Cpu.setLive_pc (b : Bank) : (c.setLive b).pc = c.pc := by unfold Cpu.setLive; split <;> rfl
@[simp] theorem Cpu.setLive_cntr (b : Bank) : (c.setLive b).cntr = c.cntr := by unfold Cpu.setLive; split <;> rfl
@[simp] theorem Cpu.setLive_astat (b : Bank) : (c.setLive b).astat = c.astat := by unfold Cpu.setLive; split <;> rfl
@[simp] theorem Cpu.setLive_mstat (b : Bank) : (c.setLive b).mstat = c.mstat := by unfold Cpu.setLive; split <;> rfl
@[simp] theorem Cpu.setLive_sstat (b : Bank) : (c.setLive b).sstat = c.sstat := by unfold Cpu.setLive; split <;> rfl
@[simp] theorem Cpu.setLive_imask (b : Bank) : (c.setLive b).imask = c.imask := by unfold Cpu.setLive; split <;> rfl
@[simp] theorem Cpu.setLive_icntl (b : Bank) : (c.setLive b).icntl = c.icntl := by unfold Cpu.setLive; split <;> rfl
@[simp] theorem Cpu.setLive_irqLine (b : Bank) : (c.setLive b).irqLine = c.irqLine := by unfold Cpu.setLive; split <;> rfl
@[simp] theorem Cpu.setLive_irqLatch (b : Bank) : (c.setLive b).irqLatch = c.irqLatch := by unfold Cpu.setLive; split <;> rfl
@[simp] theorem Cpu.setLive_pcStk (b : Bank) : (c.setLive b).pcStk = c.pcStk := by unfold Cpu.setLive; split <;> rfl
@[simp] theorem Cpu.setLive_cntrStk (b : Bank) : (c.setLive b).cntrStk = c.cntrStk := by unfold Cpu.setLive; split <;> rfl
@[simp] theorem Cpu.setLive_statStk (b : Bank) : (c.setLive b).statStk = c.statStk := by unfold Cpu.setLive; split <;> rfl
@[simp] theorem Cpu.setLive_loopStk (b : Bank) : (c.setLive b).loopStk = c.loopStk := by unfold Cpu.setLive; split <;> rfl

@[simp] theorem Cpu.withLive_px (f : Bank → Bank) : (c.withLive f).px = c.px := by simp [Cpu.withLive]
@[simp] theorem Cpu.withLive_i (f : Bank → Bank) : (c.withLive f).i = c.i := by simp [Cpu.withLive]
@[simp] theorem Cpu.withLive_m (f : Bank → Bank) : (c.withLive f).m = c.m := by simp [Cpu.withLive]
@[simp] theorem Cpu.withLive_l (f : Bank → Bank) : (c.withLive f).l = c.l := by simp [Cpu.withLive]
@[simp] theorem Cpu.withLive_base (f : Bank → Bank) : (c.withLive f).base = c.base := by simp [Cpu.withLive]
@[simp] theorem Cpu.withLive_pc (f : Bank → Bank) : (c.withLive f).pc = c.pc := by simp [Cpu.withLive]
@[simp] theorem Cpu.withLive_cntr (f : Bank → Bank) : (c.withLive f).cntr = c.cntr := by simp [Cpu.withLive]
@[simp] theorem Cpu.withLive_astat (f : Bank → Bank) : (c.withLive f).astat = c.astat := by simp [Cpu.withLive]
@[simp] theorem Cpu.withLive_mstat (f : Bank → Bank) : (c.withLive f).mstat = c.mstat := by simp [Cpu.withLive]
@[simp] theorem Cpu.withLive_sstat (f : Bank → Bank) : (c.withLive f).sstat = c.sstat := by simp [Cpu.withLive]
@[simp] theorem Cpu.withLive_imask (f : Bank → Bank) : (c.withLive f).imask = c.imask := by simp [Cpu.withLive]
@[simp] theorem Cpu.withLive_icntl (f : Bank → Bank) : (c.withLive f).icntl = c.icntl := by simp [Cpu.withLive]
@[simp] theorem Cpu.withLive_irqLine (f : Bank → Bank) : (c.withLive f).irqLine = c.irqLine := by simp [Cpu.withLive]
@[simp] theorem Cpu.withLive_irqLatch (f : Bank → Bank) : (c.withLive f).irqLatch = c.irqLatch := by simp [Cpu.withLive]
@[simp] theorem Cpu.withLive_pcStk (f : Bank → Bank) : (c.withLive f).pcStk = c.pcStk := by simp [Cpu.withLive]
@[simp] theorem Cpu.withLive_cntrStk (f : Bank → Bank) : (c.withLive f).cntrStk = c.cntrStk := by simp [Cpu.withLive]
@[simp] theorem Cpu.withLive_statStk (f : Bank → Bank) : (c.withLive f).statStk = c.statStk := by simp [Cpu.withLive]
@[simp] theorem Cpu.withLive_loopStk (f : Bank → Bank) : (c.withLive f).loopStk = c.loopStk := by simp [Cpu.withLive]

@[simp] theorem Cpu.setFlag_bank0 (k : Nat) (b : Bool) : (c.setFlag k b).bank0 = c.bank0 := rfl
@[simp] theorem Cpu.setFlag_bank1 (k : Nat) (b : Bool) : (c.setFlag k b).bank1 = c.bank1 := rfl
@[simp] theorem Cpu.setFlag_px (k : Nat) (b : Bool) : (c.setFlag k b).px = c.px := rfl
@[simp] theorem Cpu.setFlag_i (k : Nat) (b : Bool) : (c.setFlag k b).i = c.i := rfl
@[simp] theorem Cpu.setFlag_m (k : Nat) (b : Bool) : (c.setFlag k b).m = c.m := rfl
@[simp] theorem Cpu.setFlag_l (k : Nat) (b : Bool) : (c.setFlag k b).l = c.l := rfl
@[simp] theorem Cpu.setFlag_base (k : Nat) (b : Bool) : (c.setFlag k b).base = c.base := rfl
@[simp] theorem Cpu.setFlag_pc (k : Nat) (b : Bool) : (c.setFlag k b).pc = c.pc := rfl
@[simp] theorem Cpu.setFlag_cntr (k : Nat) (b : Bool) : (c.setFlag k b).cntr = c.cntr := rfl
@[simp] theorem Cpu.setFlag_mstat (k : Nat) (b : Bool) : (c.setFlag k b).mstat = c.mstat := rfl
@[simp] theorem Cpu.setFlag_sstat (k : Nat) (b : Bool) : (c.setFlag k b).sstat = c.sstat := rfl
@[simp] theorem Cpu.setFlag_imask (k : Nat) (b : Bool) : (c.setFlag k b).imask = c.imask := rfl
@[simp] theorem Cpu.setFlag_icntl (k : Nat) (b : Bool) : (c.setFlag k b).icntl = c.icntl := rfl
@[simp] theorem Cpu.setFlag_irqLine (k : Nat) (b : Bool) : (c.setFlag k b).irqLine = c.irqLine := rfl
@[simp] theorem Cpu.setFlag_irqLatch (k : Nat) (b : Bool) : (c.setFlag k b).irqLatch = c.irqLatch := rfl
@[simp] theorem Cpu.setFlag_pcStk (k : Nat) (b : Bool) : (c.setFlag k b).pcStk = c.pcStk := rfl
@[simp] theorem Cpu.setFlag_cntrStk (k : Nat) (b : Bool) : (c.setFlag k b).cntrStk = c.cntrStk := rfl
@[simp] theorem Cpu.setFlag_statStk (k : Nat) (b : Bool) : (c.setFlag k b).statStk = c.statStk := rfl
@[simp] theorem Cpu.setFlag_loopStk (k : Nat) (b : Bool) : (c.setFlag k b).loopStk = c.loopStk := rfl

@[simp] theorem Cpu.setMstat_bank0 (v : BitVec 5) : (c.setMstat v).bank0 = c.bank0 := rfl
@[simp] theorem Cpu.setMstat_bank1 (v : BitVec 5) : (c.setMstat v).bank1 = c.bank1 := rfl
@[simp] theorem Cpu.setMstat_px (v : BitVec 5) : (c.setMstat v).px = c.px := rfl
@[simp] theorem Cpu.setMstat_i (v : BitVec 5) : (c.setMstat v).i = c.i := rfl
@[simp] theorem Cpu.setMstat_m (v : BitVec 5) : (c.setMstat v).m = c.m := rfl
@[simp] theorem Cpu.setMstat_l (v : BitVec 5) : (c.setMstat v).l = c.l := rfl
@[simp] theorem Cpu.setMstat_base (v : BitVec 5) : (c.setMstat v).base = c.base := rfl
@[simp] theorem Cpu.setMstat_pc (v : BitVec 5) : (c.setMstat v).pc = c.pc := rfl
@[simp] theorem Cpu.setMstat_cntr (v : BitVec 5) : (c.setMstat v).cntr = c.cntr := rfl
@[simp] theorem Cpu.setMstat_astat (v : BitVec 5) : (c.setMstat v).astat = c.astat := rfl
@[simp] theorem Cpu.setMstat_sstat (v : BitVec 5) : (c.setMstat v).sstat = c.sstat := rfl
@[simp] theorem Cpu.setMstat_imask (v : BitVec 5) : (c.setMstat v).imask = c.imask := rfl
@[simp] theorem Cpu.setMstat_icntl (v : BitVec 5) : (c.setMstat v).icntl = c.icntl := rfl
@[simp] theorem Cpu.setMstat_irqLine (v : BitVec 5) : (c.setMstat v).irqLine = c.irqLine := rfl
@[simp] theorem Cpu.setMstat_irqLatch (v : BitVec 5) : (c.setMstat v).irqLatch = c.irqLatch := rfl
@[simp] theorem Cpu.setMstat_pcStk (v : BitVec 5) : (c.setMstat v).pcStk = c.pcStk := rfl
@[simp] theorem Cpu.setMstat_cntrStk (v : BitVec 5) : (c.setMstat v).cntrStk = c.cntrStk := rfl
@[simp] theorem Cpu.setMstat_statStk (v : BitVec 5) : (c.setMstat v).statStk = c.statStk := rfl
@[simp] theorem Cpu.setMstat_loopStk (v : BitVec 5) : (c.setMstat v).loopStk = c.loopStk := rfl

@[simp] theorem Cpu.rebase_bank0 (k : Fin 8) : (c.rebase k).bank0 = c.bank0 := rfl
@[simp] theorem Cpu.rebase_bank1 (k : Fin 8) : (c.rebase k).bank1 = c.bank1 := rfl
@[simp] theorem Cpu.rebase_px (k : Fin 8) : (c.rebase k).px = c.px := rfl
@[simp] theorem Cpu.rebase_i (k : Fin 8) : (c.rebase k).i = c.i := rfl
@[simp] theorem Cpu.rebase_m (k : Fin 8) : (c.rebase k).m = c.m := rfl
@[simp] theorem Cpu.rebase_l (k : Fin 8) : (c.rebase k).l = c.l := rfl
@[simp] theorem Cpu.rebase_pc (k : Fin 8) : (c.rebase k).pc = c.pc := rfl
@[simp] theorem Cpu.rebase_cntr (k : Fin 8) : (c.rebase k).cntr = c.cntr := rfl
@[simp] theorem Cpu.rebase_astat (k : Fin 8) : (c.rebase k).astat = c.astat := rfl
@[simp] theorem Cpu.rebase_mstat (k : Fin 8) : (c.rebase k).mstat = c.mstat := rfl
@[simp] theorem Cpu.rebase_sstat (k : Fin 8) : (c.rebase k).sstat = c.sstat := rfl
@[simp] theorem Cpu.rebase_imask (k : Fin 8) : (c.rebase k).imask = c.imask := rfl
@[simp] theorem Cpu.rebase_icntl (k : Fin 8) : (c.rebase k).icntl = c.icntl := rfl
@[simp] theorem Cpu.rebase_irqLine (k : Fin 8) : (c.rebase k).irqLine = c.irqLine := rfl
@[simp] theorem Cpu.rebase_irqLatch (k : Fin 8) : (c.rebase k).irqLatch = c.irqLatch := rfl
@[simp] theorem Cpu.rebase_pcStk (k : Fin 8) : (c.rebase k).pcStk = c.pcStk := rfl
@[simp] theorem Cpu.rebase_cntrStk (k : Fin 8) : (c.rebase k).cntrStk = c.cntrStk := rfl
@[simp] theorem Cpu.rebase_statStk (k : Fin 8) : (c.rebase k).statStk = c.statStk := rfl
@[simp] theorem Cpu.rebase_loopStk (k : Fin 8) : (c.rebase k).loopStk = c.loopStk := rfl

@[simp] theorem Cpu.dagUpdate_bank0 (k n : Fin 8) : (c.dagUpdate k n).bank0 = c.bank0 := rfl
@[simp] theorem Cpu.dagUpdate_bank1 (k n : Fin 8) : (c.dagUpdate k n).bank1 = c.bank1 := rfl
@[simp] theorem Cpu.dagUpdate_px (k n : Fin 8) : (c.dagUpdate k n).px = c.px := rfl
@[simp] theorem Cpu.dagUpdate_m (k n : Fin 8) : (c.dagUpdate k n).m = c.m := rfl
@[simp] theorem Cpu.dagUpdate_l (k n : Fin 8) : (c.dagUpdate k n).l = c.l := rfl
@[simp] theorem Cpu.dagUpdate_base (k n : Fin 8) : (c.dagUpdate k n).base = c.base := rfl
@[simp] theorem Cpu.dagUpdate_pc (k n : Fin 8) : (c.dagUpdate k n).pc = c.pc := rfl
@[simp] theorem Cpu.dagUpdate_cntr (k n : Fin 8) : (c.dagUpdate k n).cntr = c.cntr := rfl
@[simp] theorem Cpu.dagUpdate_astat (k n : Fin 8) : (c.dagUpdate k n).astat = c.astat := rfl
@[simp] theorem Cpu.dagUpdate_mstat (k n : Fin 8) : (c.dagUpdate k n).mstat = c.mstat := rfl
@[simp] theorem Cpu.dagUpdate_sstat (k n : Fin 8) : (c.dagUpdate k n).sstat = c.sstat := rfl
@[simp] theorem Cpu.dagUpdate_imask (k n : Fin 8) : (c.dagUpdate k n).imask = c.imask := rfl
@[simp] theorem Cpu.dagUpdate_icntl (k n : Fin 8) : (c.dagUpdate k n).icntl = c.icntl := rfl
@[simp] theorem Cpu.dagUpdate_irqLine (k n : Fin 8) : (c.dagUpdate k n).irqLine = c.irqLine := rfl
@[simp] theorem Cpu.dagUpdate_irqLatch (k n : Fin 8) : (c.dagUpdate k n).irqLatch = c.irqLatch := rfl
@[simp] theorem Cpu.dagUpdate_pcStk (k n : Fin 8) : (c.dagUpdate k n).pcStk = c.pcStk := rfl
@[simp] theorem Cpu.dagUpdate_cntrStk (k n : Fin 8) : (c.dagUpdate k n).cntrStk = c.cntrStk := rfl
@[simp] theorem Cpu.dagUpdate_statStk (k n : Fin 8) : (c.dagUpdate k n).statStk = c.statStk := rfl
@[simp] theorem Cpu.dagUpdate_loopStk (k n : Fin 8) : (c.dagUpdate k n).loopStk = c.loopStk := rfl

@[simp] theorem Cpu.pcPush_bank0 (v : Addr) : (c.pcPush v).bank0 = c.bank0 := rfl
@[simp] theorem Cpu.pcPush_bank1 (v : Addr) : (c.pcPush v).bank1 = c.bank1 := rfl
@[simp] theorem Cpu.pcPush_px (v : Addr) : (c.pcPush v).px = c.px := rfl
@[simp] theorem Cpu.pcPush_i (v : Addr) : (c.pcPush v).i = c.i := rfl
@[simp] theorem Cpu.pcPush_m (v : Addr) : (c.pcPush v).m = c.m := rfl
@[simp] theorem Cpu.pcPush_l (v : Addr) : (c.pcPush v).l = c.l := rfl
@[simp] theorem Cpu.pcPush_base (v : Addr) : (c.pcPush v).base = c.base := rfl
@[simp] theorem Cpu.pcPush_pc (v : Addr) : (c.pcPush v).pc = c.pc := rfl
@[simp] theorem Cpu.pcPush_cntr (v : Addr) : (c.pcPush v).cntr = c.cntr := rfl
@[simp] theorem Cpu.pcPush_astat (v : Addr) : (c.pcPush v).astat = c.astat := rfl
@[simp] theorem Cpu.pcPush_mstat (v : Addr) : (c.pcPush v).mstat = c.mstat := rfl
@[simp] theorem Cpu.pcPush_imask (v : Addr) : (c.pcPush v).imask = c.imask := rfl
@[simp] theorem Cpu.pcPush_icntl (v : Addr) : (c.pcPush v).icntl = c.icntl := rfl
@[simp] theorem Cpu.pcPush_irqLine (v : Addr) : (c.pcPush v).irqLine = c.irqLine := rfl
@[simp] theorem Cpu.pcPush_irqLatch (v : Addr) : (c.pcPush v).irqLatch = c.irqLatch := rfl
@[simp] theorem Cpu.pcPush_cntrStk (v : Addr) : (c.pcPush v).cntrStk = c.cntrStk := rfl
@[simp] theorem Cpu.pcPush_statStk (v : Addr) : (c.pcPush v).statStk = c.statStk := rfl
@[simp] theorem Cpu.pcPush_loopStk (v : Addr) : (c.pcPush v).loopStk = c.loopStk := rfl

@[simp] theorem Cpu.pcPop_bank0 : (c.pcPop).bank0 = c.bank0 := rfl
@[simp] theorem Cpu.pcPop_bank1 : (c.pcPop).bank1 = c.bank1 := rfl
@[simp] theorem Cpu.pcPop_px : (c.pcPop).px = c.px := rfl
@[simp] theorem Cpu.pcPop_i : (c.pcPop).i = c.i := rfl
@[simp] theorem Cpu.pcPop_m : (c.pcPop).m = c.m := rfl
@[simp] theorem Cpu.pcPop_l : (c.pcPop).l = c.l := rfl
@[simp] theorem Cpu.pcPop_base : (c.pcPop).base = c.base := rfl
@[simp] theorem Cpu.pcPop_pc : (c.pcPop).pc = c.pc := rfl
@[simp] theorem Cpu.pcPop_cntr : (c.pcPop).cntr = c.cntr := rfl
@[simp] theorem Cpu.pcPop_astat : (c.pcPop).astat = c.astat := rfl
@[simp] theorem Cpu.pcPop_mstat : (c.pcPop).mstat = c.mstat := rfl
@[simp] theorem Cpu.pcPop_imask : (c.pcPop).imask = c.imask := rfl
@[simp] theorem Cpu.pcPop_icntl : (c.pcPop).icntl = c.icntl := rfl
@[simp] theorem Cpu.pcPop_irqLine : (c.pcPop).irqLine = c.irqLine := rfl
@[simp] theorem Cpu.pcPop_irqLatch : (c.pcPop).irqLatch = c.irqLatch := rfl
@[simp] theorem Cpu.pcPop_cntrStk : (c.pcPop).cntrStk = c.cntrStk := rfl
@[simp] theorem Cpu.pcPop_statStk : (c.pcPop).statStk = c.statStk := rfl
@[simp] theorem Cpu.pcPop_loopStk : (c.pcPop).loopStk = c.loopStk := rfl

@[simp] theorem Cpu.cntrPush_bank0 : (c.cntrPush).bank0 = c.bank0 := rfl
@[simp] theorem Cpu.cntrPush_bank1 : (c.cntrPush).bank1 = c.bank1 := rfl
@[simp] theorem Cpu.cntrPush_px : (c.cntrPush).px = c.px := rfl
@[simp] theorem Cpu.cntrPush_i : (c.cntrPush).i = c.i := rfl
@[simp] theorem Cpu.cntrPush_m : (c.cntrPush).m = c.m := rfl
@[simp] theorem Cpu.cntrPush_l : (c.cntrPush).l = c.l := rfl
@[simp] theorem Cpu.cntrPush_base : (c.cntrPush).base = c.base := rfl
@[simp] theorem Cpu.cntrPush_pc : (c.cntrPush).pc = c.pc := rfl
@[simp] theorem Cpu.cntrPush_cntr : (c.cntrPush).cntr = c.cntr := rfl
@[simp] theorem Cpu.cntrPush_astat : (c.cntrPush).astat = c.astat := rfl
@[simp] theorem Cpu.cntrPush_mstat : (c.cntrPush).mstat = c.mstat := rfl
@[simp] theorem Cpu.cntrPush_imask : (c.cntrPush).imask = c.imask := rfl
@[simp] theorem Cpu.cntrPush_icntl : (c.cntrPush).icntl = c.icntl := rfl
@[simp] theorem Cpu.cntrPush_irqLine : (c.cntrPush).irqLine = c.irqLine := rfl
@[simp] theorem Cpu.cntrPush_irqLatch : (c.cntrPush).irqLatch = c.irqLatch := rfl
@[simp] theorem Cpu.cntrPush_pcStk : (c.cntrPush).pcStk = c.pcStk := rfl
@[simp] theorem Cpu.cntrPush_statStk : (c.cntrPush).statStk = c.statStk := rfl
@[simp] theorem Cpu.cntrPush_loopStk : (c.cntrPush).loopStk = c.loopStk := rfl

@[simp] theorem Cpu.cntrPop_bank0 : (c.cntrPop).bank0 = c.bank0 := rfl
@[simp] theorem Cpu.cntrPop_bank1 : (c.cntrPop).bank1 = c.bank1 := rfl
@[simp] theorem Cpu.cntrPop_px : (c.cntrPop).px = c.px := rfl
@[simp] theorem Cpu.cntrPop_i : (c.cntrPop).i = c.i := rfl
@[simp] theorem Cpu.cntrPop_m : (c.cntrPop).m = c.m := rfl
@[simp] theorem Cpu.cntrPop_l : (c.cntrPop).l = c.l := rfl
@[simp] theorem Cpu.cntrPop_base : (c.cntrPop).base = c.base := rfl
@[simp] theorem Cpu.cntrPop_pc : (c.cntrPop).pc = c.pc := rfl
@[simp] theorem Cpu.cntrPop_astat : (c.cntrPop).astat = c.astat := rfl
@[simp] theorem Cpu.cntrPop_mstat : (c.cntrPop).mstat = c.mstat := rfl
@[simp] theorem Cpu.cntrPop_imask : (c.cntrPop).imask = c.imask := rfl
@[simp] theorem Cpu.cntrPop_icntl : (c.cntrPop).icntl = c.icntl := rfl
@[simp] theorem Cpu.cntrPop_irqLine : (c.cntrPop).irqLine = c.irqLine := rfl
@[simp] theorem Cpu.cntrPop_irqLatch : (c.cntrPop).irqLatch = c.irqLatch := rfl
@[simp] theorem Cpu.cntrPop_pcStk : (c.cntrPop).pcStk = c.pcStk := rfl
@[simp] theorem Cpu.cntrPop_statStk : (c.cntrPop).statStk = c.statStk := rfl
@[simp] theorem Cpu.cntrPop_loopStk : (c.cntrPop).loopStk = c.loopStk := rfl

@[simp] theorem Cpu.statPush_bank0 : (c.statPush).bank0 = c.bank0 := rfl
@[simp] theorem Cpu.statPush_bank1 : (c.statPush).bank1 = c.bank1 := rfl
@[simp] theorem Cpu.statPush_px : (c.statPush).px = c.px := rfl
@[simp] theorem Cpu.statPush_i : (c.statPush).i = c.i := rfl
@[simp] theorem Cpu.statPush_m : (c.statPush).m = c.m := rfl
@[simp] theorem Cpu.statPush_l : (c.statPush).l = c.l := rfl
@[simp] theorem Cpu.statPush_base : (c.statPush).base = c.base := rfl
@[simp] theorem Cpu.statPush_pc : (c.statPush).pc = c.pc := rfl
@[simp] theorem Cpu.statPush_cntr : (c.statPush).cntr = c.cntr := rfl
@[simp] theorem Cpu.statPush_astat : (c.statPush).astat = c.astat := rfl
@[simp] theorem Cpu.statPush_mstat : (c.statPush).mstat = c.mstat := rfl
@[simp] theorem Cpu.statPush_imask : (c.statPush).imask = c.imask := rfl
@[simp] theorem Cpu.statPush_icntl : (c.statPush).icntl = c.icntl := rfl
@[simp] theorem Cpu.statPush_irqLine : (c.statPush).irqLine = c.irqLine := rfl
@[simp] theorem Cpu.statPush_irqLatch : (c.statPush).irqLatch = c.irqLatch := rfl
@[simp] theorem Cpu.statPush_pcStk : (c.statPush).pcStk = c.pcStk := rfl
@[simp] theorem Cpu.statPush_cntrStk : (c.statPush).cntrStk = c.cntrStk := rfl
@[simp] theorem Cpu.statPush_loopStk : (c.statPush).loopStk = c.loopStk := rfl

@[simp] theorem Cpu.statPop_bank0 : (c.statPop).bank0 = c.bank0 := rfl
@[simp] theorem Cpu.statPop_bank1 : (c.statPop).bank1 = c.bank1 := rfl
@[simp] theorem Cpu.statPop_px : (c.statPop).px = c.px := rfl
@[simp] theorem Cpu.statPop_i : (c.statPop).i = c.i := rfl
@[simp] theorem Cpu.statPop_m : (c.statPop).m = c.m := rfl
@[simp] theorem Cpu.statPop_l : (c.statPop).l = c.l := rfl
@[simp] theorem Cpu.statPop_base : (c.statPop).base = c.base := rfl
@[simp] theorem Cpu.statPop_pc : (c.statPop).pc = c.pc := rfl
@[simp] theorem Cpu.statPop_cntr : (c.statPop).cntr = c.cntr := rfl
@[simp] theorem Cpu.statPop_icntl : (c.statPop).icntl = c.icntl := rfl
@[simp] theorem Cpu.statPop_irqLine : (c.statPop).irqLine = c.irqLine := rfl
@[simp] theorem Cpu.statPop_irqLatch : (c.statPop).irqLatch = c.irqLatch := rfl
@[simp] theorem Cpu.statPop_pcStk : (c.statPop).pcStk = c.pcStk := rfl
@[simp] theorem Cpu.statPop_cntrStk : (c.statPop).cntrStk = c.cntrStk := rfl
@[simp] theorem Cpu.statPop_loopStk : (c.statPop).loopStk = c.loopStk := rfl

@[simp] theorem Cpu.loopPush_bank0 (e : LoopEntry) : (c.loopPush e).bank0 = c.bank0 := rfl
@[simp] theorem Cpu.loopPush_bank1 (e : LoopEntry) : (c.loopPush e).bank1 = c.bank1 := rfl
@[simp] theorem Cpu.loopPush_px (e : LoopEntry) : (c.loopPush e).px = c.px := rfl
@[simp] theorem Cpu.loopPush_i (e : LoopEntry) : (c.loopPush e).i = c.i := rfl
@[simp] theorem Cpu.loopPush_m (e : LoopEntry) : (c.loopPush e).m = c.m := rfl
@[simp] theorem Cpu.loopPush_l (e : LoopEntry) : (c.loopPush e).l = c.l := rfl
@[simp] theorem Cpu.loopPush_base (e : LoopEntry) : (c.loopPush e).base = c.base := rfl
@[simp] theorem Cpu.loopPush_pc (e : LoopEntry) : (c.loopPush e).pc = c.pc := rfl
@[simp] theorem Cpu.loopPush_cntr (e : LoopEntry) : (c.loopPush e).cntr = c.cntr := rfl
@[simp] theorem Cpu.loopPush_astat (e : LoopEntry) : (c.loopPush e).astat = c.astat := rfl
@[simp] theorem Cpu.loopPush_mstat (e : LoopEntry) : (c.loopPush e).mstat = c.mstat := rfl
@[simp] theorem Cpu.loopPush_imask (e : LoopEntry) : (c.loopPush e).imask = c.imask := rfl
@[simp] theorem Cpu.loopPush_icntl (e : LoopEntry) : (c.loopPush e).icntl = c.icntl := rfl
@[simp] theorem Cpu.loopPush_irqLine (e : LoopEntry) : (c.loopPush e).irqLine = c.irqLine := rfl
@[simp] theorem Cpu.loopPush_irqLatch (e : LoopEntry) : (c.loopPush e).irqLatch = c.irqLatch := rfl
@[simp] theorem Cpu.loopPush_pcStk (e : LoopEntry) : (c.loopPush e).pcStk = c.pcStk := rfl
@[simp] theorem Cpu.loopPush_cntrStk (e : LoopEntry) : (c.loopPush e).cntrStk = c.cntrStk := rfl
@[simp] theorem Cpu.loopPush_statStk (e : LoopEntry) : (c.loopPush e).statStk = c.statStk := rfl

@[simp] theorem Cpu.loopPop_bank0 : (c.loopPop).bank0 = c.bank0 := rfl
@[simp] theorem Cpu.loopPop_bank1 : (c.loopPop).bank1 = c.bank1 := rfl
@[simp] theorem Cpu.loopPop_px : (c.loopPop).px = c.px := rfl
@[simp] theorem Cpu.loopPop_i : (c.loopPop).i = c.i := rfl
@[simp] theorem Cpu.loopPop_m : (c.loopPop).m = c.m := rfl
@[simp] theorem Cpu.loopPop_l : (c.loopPop).l = c.l := rfl
@[simp] theorem Cpu.loopPop_base : (c.loopPop).base = c.base := rfl
@[simp] theorem Cpu.loopPop_pc : (c.loopPop).pc = c.pc := rfl
@[simp] theorem Cpu.loopPop_cntr : (c.loopPop).cntr = c.cntr := rfl
@[simp] theorem Cpu.loopPop_astat : (c.loopPop).astat = c.astat := rfl
@[simp] theorem Cpu.loopPop_mstat : (c.loopPop).mstat = c.mstat := rfl
@[simp] theorem Cpu.loopPop_imask : (c.loopPop).imask = c.imask := rfl
@[simp] theorem Cpu.loopPop_icntl : (c.loopPop).icntl = c.icntl := rfl
@[simp] theorem Cpu.loopPop_irqLine : (c.loopPop).irqLine = c.irqLine := rfl
@[simp] theorem Cpu.loopPop_irqLatch : (c.loopPop).irqLatch = c.irqLatch := rfl
@[simp] theorem Cpu.loopPop_pcStk : (c.loopPop).pcStk = c.pcStk := rfl
@[simp] theorem Cpu.loopPop_cntrStk : (c.loopPop).cntrStk = c.cntrStk := rfl
@[simp] theorem Cpu.loopPop_statStk : (c.loopPop).statStk = c.statStk := rfl

@[simp] theorem Cpu.jumpTo_bank0 (a : Addr) : (c.jumpTo a).bank0 = c.bank0 := rfl
@[simp] theorem Cpu.jumpTo_bank1 (a : Addr) : (c.jumpTo a).bank1 = c.bank1 := rfl
@[simp] theorem Cpu.jumpTo_px (a : Addr) : (c.jumpTo a).px = c.px := rfl
@[simp] theorem Cpu.jumpTo_i (a : Addr) : (c.jumpTo a).i = c.i := rfl
@[simp] theorem Cpu.jumpTo_m (a : Addr) : (c.jumpTo a).m = c.m := rfl
@[simp] theorem Cpu.jumpTo_l (a : Addr) : (c.jumpTo a).l = c.l := rfl
@[simp] theorem Cpu.jumpTo_base (a : Addr) : (c.jumpTo a).base = c.base := rfl
@[simp] theorem Cpu.jumpTo_cntr (a : Addr) : (c.jumpTo a).cntr = c.cntr := rfl
@[simp] theorem Cpu.jumpTo_astat (a : Addr) : (c.jumpTo a).astat = c.astat := rfl
@[simp] theorem Cpu.jumpTo_mstat (a : Addr) : (c.jumpTo a).mstat = c.mstat := rfl
@[simp] theorem Cpu.jumpTo_sstat (a : Addr) : (c.jumpTo a).sstat = c.sstat := rfl
@[simp] theorem Cpu.jumpTo_imask (a : Addr) : (c.jumpTo a).imask = c.imask := rfl
@[simp] theorem Cpu.jumpTo_icntl (a : Addr) : (c.jumpTo a).icntl = c.icntl := rfl
@[simp] theorem Cpu.jumpTo_irqLine (a : Addr) : (c.jumpTo a).irqLine = c.irqLine := rfl
@[simp] theorem Cpu.jumpTo_irqLatch (a : Addr) : (c.jumpTo a).irqLatch = c.irqLatch := rfl
@[simp] theorem Cpu.jumpTo_pcStk (a : Addr) : (c.jumpTo a).pcStk = c.pcStk := rfl
@[simp] theorem Cpu.jumpTo_cntrStk (a : Addr) : (c.jumpTo a).cntrStk = c.cntrStk := rfl
@[simp] theorem Cpu.jumpTo_statStk (a : Addr) : (c.jumpTo a).statStk = c.statStk := rfl
@[simp] theorem Cpu.jumpTo_loopStk (a : Addr) : (c.jumpTo a).loopStk = c.loopStk := rfl

@[simp] theorem Cpu.callTo_bank0 (a : Addr) : (c.callTo a).bank0 = c.bank0 := rfl
@[simp] theorem Cpu.callTo_bank1 (a : Addr) : (c.callTo a).bank1 = c.bank1 := rfl
@[simp] theorem Cpu.callTo_px (a : Addr) : (c.callTo a).px = c.px := rfl
@[simp] theorem Cpu.callTo_i (a : Addr) : (c.callTo a).i = c.i := rfl
@[simp] theorem Cpu.callTo_m (a : Addr) : (c.callTo a).m = c.m := rfl
@[simp] theorem Cpu.callTo_l (a : Addr) : (c.callTo a).l = c.l := rfl
@[simp] theorem Cpu.callTo_base (a : Addr) : (c.callTo a).base = c.base := rfl
@[simp] theorem Cpu.callTo_cntr (a : Addr) : (c.callTo a).cntr = c.cntr := rfl
@[simp] theorem Cpu.callTo_astat (a : Addr) : (c.callTo a).astat = c.astat := rfl
@[simp] theorem Cpu.callTo_mstat (a : Addr) : (c.callTo a).mstat = c.mstat := rfl
@[simp] theorem Cpu.callTo_imask (a : Addr) : (c.callTo a).imask = c.imask := rfl
@[simp] theorem Cpu.callTo_icntl (a : Addr) : (c.callTo a).icntl = c.icntl := rfl
@[simp] theorem Cpu.callTo_irqLine (a : Addr) : (c.callTo a).irqLine = c.irqLine := rfl
@[simp] theorem Cpu.callTo_irqLatch (a : Addr) : (c.callTo a).irqLatch = c.irqLatch := rfl
@[simp] theorem Cpu.callTo_cntrStk (a : Addr) : (c.callTo a).cntrStk = c.cntrStk := rfl
@[simp] theorem Cpu.callTo_statStk (a : Addr) : (c.callTo a).statStk = c.statStk := rfl
@[simp] theorem Cpu.callTo_loopStk (a : Addr) : (c.callTo a).loopStk = c.loopStk := rfl

@[simp] theorem Cpu.pcReturn_bank0 : (c.pcReturn).bank0 = c.bank0 := rfl
@[simp] theorem Cpu.pcReturn_bank1 : (c.pcReturn).bank1 = c.bank1 := rfl
@[simp] theorem Cpu.pcReturn_px : (c.pcReturn).px = c.px := rfl
@[simp] theorem Cpu.pcReturn_i : (c.pcReturn).i = c.i := rfl
@[simp] theorem Cpu.pcReturn_m : (c.pcReturn).m = c.m := rfl
@[simp] theorem Cpu.pcReturn_l : (c.pcReturn).l = c.l := rfl
@[simp] theorem Cpu.pcReturn_base : (c.pcReturn).base = c.base := rfl
@[simp] theorem Cpu.pcReturn_cntr : (c.pcReturn).cntr = c.cntr := rfl
@[simp] theorem Cpu.pcReturn_astat : (c.pcReturn).astat = c.astat := rfl
@[simp] theorem Cpu.pcReturn_mstat : (c.pcReturn).mstat = c.mstat := rfl
@[simp] theorem Cpu.pcReturn_imask : (c.pcReturn).imask = c.imask := rfl
@[simp] theorem Cpu.pcReturn_icntl : (c.pcReturn).icntl = c.icntl := rfl
@[simp] theorem Cpu.pcReturn_irqLine : (c.pcReturn).irqLine = c.irqLine := rfl
@[simp] theorem Cpu.pcReturn_irqLatch : (c.pcReturn).irqLatch = c.irqLatch := rfl
@[simp] theorem Cpu.pcReturn_cntrStk : (c.pcReturn).cntrStk = c.cntrStk := rfl
@[simp] theorem Cpu.pcReturn_statStk : (c.pcReturn).statStk = c.statStk := rfl
@[simp] theorem Cpu.pcReturn_loopStk : (c.pcReturn).loopStk = c.loopStk := rfl

@[simp] theorem Cpu.setAluFlags_bank0 (o : AluOut) : (c.setAluFlags o).bank0 = c.bank0 := by simp [Cpu.setAluFlags]
@[simp] theorem Cpu.setAluFlags_bank1 (o : AluOut) : (c.setAluFlags o).bank1 = c.bank1 := by simp [Cpu.setAluFlags]
@[simp] theorem Cpu.setAluFlags_px (o : AluOut) : (c.setAluFlags o).px = c.px := by simp [Cpu.setAluFlags]
@[simp] theorem Cpu.setAluFlags_i (o : AluOut) : (c.setAluFlags o).i = c.i := by simp [Cpu.setAluFlags]
@[simp] theorem Cpu.setAluFlags_m (o : AluOut) : (c.setAluFlags o).m = c.m := by simp [Cpu.setAluFlags]
@[simp] theorem Cpu.setAluFlags_l (o : AluOut) : (c.setAluFlags o).l = c.l := by simp [Cpu.setAluFlags]
@[simp] theorem Cpu.setAluFlags_base (o : AluOut) : (c.setAluFlags o).base = c.base := by simp [Cpu.setAluFlags]
@[simp] theorem Cpu.setAluFlags_pc (o : AluOut) : (c.setAluFlags o).pc = c.pc := by simp [Cpu.setAluFlags]
@[simp] theorem Cpu.setAluFlags_cntr (o : AluOut) : (c.setAluFlags o).cntr = c.cntr := by simp [Cpu.setAluFlags]
@[simp] theorem Cpu.setAluFlags_mstat (o : AluOut) : (c.setAluFlags o).mstat = c.mstat := by simp [Cpu.setAluFlags]
@[simp] theorem Cpu.setAluFlags_sstat (o : AluOut) : (c.setAluFlags o).sstat = c.sstat := by simp [Cpu.setAluFlags]
@[simp] theorem Cpu.setAluFlags_imask (o : AluOut) : (c.setAluFlags o).imask = c.imask := by simp [Cpu.setAluFlags]
@[simp] theorem Cpu.setAluFlags_icntl (o : AluOut) : (c.setAluFlags o).icntl = c.icntl := by simp [Cpu.setAluFlags]
@[simp] theorem Cpu.setAluFlags_irqLine (o : AluOut) : (c.setAluFlags o).irqLine = c.irqLine := by simp [Cpu.setAluFlags]
@[simp] theorem Cpu.setAluFlags_irqLatch (o : AluOut) : (c.setAluFlags o).irqLatch = c.irqLatch := by simp [Cpu.setAluFlags]
@[simp] theorem Cpu.setAluFlags_pcStk (o : AluOut) : (c.setAluFlags o).pcStk = c.pcStk := by simp [Cpu.setAluFlags]
@[simp] theorem Cpu.setAluFlags_cntrStk (o : AluOut) : (c.setAluFlags o).cntrStk = c.cntrStk := by simp [Cpu.setAluFlags]
@[simp] theorem Cpu.setAluFlags_statStk (o : AluOut) : (c.setAluFlags o).statStk = c.statStk := by simp [Cpu.setAluFlags]
@[simp] theorem Cpu.setAluFlags_loopStk (o : AluOut) : (c.setAluFlags o).loopStk = c.loopStk := by simp [Cpu.setAluFlags]

@[simp] theorem Cpu.setAbsSign_bank0 (fn : AluFn) (x : Word) : (c.setAbsSign fn x).bank0 = c.bank0 := by cases fn <;> rfl
@[simp] theorem Cpu.setAbsSign_bank1 (fn : AluFn) (x : Word) : (c.setAbsSign fn x).bank1 = c.bank1 := by cases fn <;> rfl
@[simp] theorem Cpu.setAbsSign_px (fn : AluFn) (x : Word) : (c.setAbsSign fn x).px = c.px := by cases fn <;> rfl
@[simp] theorem Cpu.setAbsSign_i (fn : AluFn) (x : Word) : (c.setAbsSign fn x).i = c.i := by cases fn <;> rfl
@[simp] theorem Cpu.setAbsSign_m (fn : AluFn) (x : Word) : (c.setAbsSign fn x).m = c.m := by cases fn <;> rfl
@[simp] theorem Cpu.setAbsSign_l (fn : AluFn) (x : Word) : (c.setAbsSign fn x).l = c.l := by cases fn <;> rfl
@[simp] theorem Cpu.setAbsSign_base (fn : AluFn) (x : Word) : (c.setAbsSign fn x).base = c.base := by cases fn <;> rfl
@[simp] theorem Cpu.setAbsSign_pc (fn : AluFn) (x : Word) : (c.setAbsSign fn x).pc = c.pc := by cases fn <;> rfl
@[simp] theorem Cpu.setAbsSign_cntr (fn : AluFn) (x : Word) : (c.setAbsSign fn x).cntr = c.cntr := by cases fn <;> rfl
@[simp] theorem Cpu.setAbsSign_mstat (fn : AluFn) (x : Word) : (c.setAbsSign fn x).mstat = c.mstat := by cases fn <;> rfl
@[simp] theorem Cpu.setAbsSign_sstat (fn : AluFn) (x : Word) : (c.setAbsSign fn x).sstat = c.sstat := by cases fn <;> rfl
@[simp] theorem Cpu.setAbsSign_imask (fn : AluFn) (x : Word) : (c.setAbsSign fn x).imask = c.imask := by cases fn <;> rfl
@[simp] theorem Cpu.setAbsSign_icntl (fn : AluFn) (x : Word) : (c.setAbsSign fn x).icntl = c.icntl := by cases fn <;> rfl
@[simp] theorem Cpu.setAbsSign_irqLine (fn : AluFn) (x : Word) : (c.setAbsSign fn x).irqLine = c.irqLine := by cases fn <;> rfl
@[simp] theorem Cpu.setAbsSign_irqLatch (fn : AluFn) (x : Word) : (c.setAbsSign fn x).irqLatch = c.irqLatch := by cases fn <;> rfl
@[simp] theorem Cpu.setAbsSign_pcStk (fn : AluFn) (x : Word) : (c.setAbsSign fn x).pcStk = c.pcStk := by cases fn <;> rfl
@[simp] theorem Cpu.setAbsSign_cntrStk (fn : AluFn) (x : Word) : (c.setAbsSign fn x).cntrStk = c.cntrStk := by cases fn <;> rfl
@[simp] theorem Cpu.setAbsSign_statStk (fn : AluFn) (x : Word) : (c.setAbsSign fn x).statStk = c.statStk := by cases fn <;> rfl
@[simp] theorem Cpu.setAbsSign_loopStk (fn : AluFn) (x : Word) : (c.setAbsSign fn x).loopStk = c.loopStk := by cases fn <;> rfl

@[simp] theorem Cpu.aluWrite_px (z : Dest) (o : AluOut) : (c.aluWrite z o).px = c.px := by cases z <;> simp [Cpu.aluWrite]
@[simp] theorem Cpu.aluWrite_i (z : Dest) (o : AluOut) : (c.aluWrite z o).i = c.i := by cases z <;> simp [Cpu.aluWrite]
@[simp] theorem Cpu.aluWrite_m (z : Dest) (o : AluOut) : (c.aluWrite z o).m = c.m := by cases z <;> simp [Cpu.aluWrite]
@[simp] theorem Cpu.aluWrite_l (z : Dest) (o : AluOut) : (c.aluWrite z o).l = c.l := by cases z <;> simp [Cpu.aluWrite]
@[simp] theorem Cpu.aluWrite_base (z : Dest) (o : AluOut) : (c.aluWrite z o).base = c.base := by cases z <;> simp [Cpu.aluWrite]
@[simp] theorem Cpu.aluWrite_pc (z : Dest) (o : AluOut) : (c.aluWrite z o).pc = c.pc := by cases z <;> simp [Cpu.aluWrite]
@[simp] theorem Cpu.aluWrite_cntr (z : Dest) (o : AluOut) : (c.aluWrite z o).cntr = c.cntr := by cases z <;> simp [Cpu.aluWrite]
@[simp] theorem Cpu.aluWrite_astat (z : Dest) (o : AluOut) : (c.aluWrite z o).astat = c.astat := by cases z <;> simp [Cpu.aluWrite]
@[simp] theorem Cpu.aluWrite_mstat (z : Dest) (o : AluOut) : (c.aluWrite z o).mstat = c.mstat := by cases z <;> simp [Cpu.aluWrite]
@[simp] theorem Cpu.aluWrite_sstat (z : Dest) (o : AluOut) : (c.aluWrite z o).sstat = c.sstat := by cases z <;> simp [Cpu.aluWrite]
@[simp] theorem Cpu.aluWrite_imask (z : Dest) (o : AluOut) : (c.aluWrite z o).imask = c.imask := by cases z <;> simp [Cpu.aluWrite]
@[simp] theorem Cpu.aluWrite_icntl (z : Dest) (o : AluOut) : (c.aluWrite z o).icntl = c.icntl := by cases z <;> simp [Cpu.aluWrite]
@[simp] theorem Cpu.aluWrite_irqLine (z : Dest) (o : AluOut) : (c.aluWrite z o).irqLine = c.irqLine := by cases z <;> simp [Cpu.aluWrite]
@[simp] theorem Cpu.aluWrite_irqLatch (z : Dest) (o : AluOut) : (c.aluWrite z o).irqLatch = c.irqLatch := by cases z <;> simp [Cpu.aluWrite]
@[simp] theorem Cpu.aluWrite_pcStk (z : Dest) (o : AluOut) : (c.aluWrite z o).pcStk = c.pcStk := by cases z <;> simp [Cpu.aluWrite]
@[simp] theorem Cpu.aluWrite_cntrStk (z : Dest) (o : AluOut) : (c.aluWrite z o).cntrStk = c.cntrStk := by cases z <;> simp [Cpu.aluWrite]
@[simp] theorem Cpu.aluWrite_statStk (z : Dest) (o : AluOut) : (c.aluWrite z o).statStk = c.statStk := by cases z <;> simp [Cpu.aluWrite]
@[simp] theorem Cpu.aluWrite_loopStk (z : Dest) (o : AluOut) : (c.aluWrite z o).loopStk = c.loopStk := by cases z <;> simp [Cpu.aluWrite]

@[simp] theorem Cpu.aluPart_px (z : Dest) (fn : AluFn) (y : BitVec 2) (x : BitVec 3) : (aluPart z fn y x c).px = c.px := by simp [aluPart]
@[simp] theorem Cpu.aluPart_i (z : Dest) (fn : AluFn) (y : BitVec 2) (x : BitVec 3) : (aluPart z fn y x c).i = c.i := by simp [aluPart]
@[simp] theorem Cpu.aluPart_m (z : Dest) (fn : AluFn) (y : BitVec 2) (x : BitVec 3) : (aluPart z fn y x c).m = c.m := by simp [aluPart]
@[simp] theorem Cpu.aluPart_l (z : Dest) (fn : AluFn) (y : BitVec 2) (x : BitVec 3) : (aluPart z fn y x c).l = c.l := by simp [aluPart]
@[simp] theorem Cpu.aluPart_base (z : Dest) (fn : AluFn) (y : BitVec 2) (x : BitVec 3) : (aluPart z fn y x c).base = c.base := by simp [aluPart]
@[simp] theorem Cpu.aluPart_pc (z : Dest) (fn : AluFn) (y : BitVec 2) (x : BitVec 3) : (aluPart z fn y x c).pc = c.pc := by simp [aluPart]
@[simp] theorem Cpu.aluPart_cntr (z : Dest) (fn : AluFn) (y : BitVec 2) (x : BitVec 3) : (aluPart z fn y x c).cntr = c.cntr := by simp [aluPart]
@[simp] theorem Cpu.aluPart_mstat (z : Dest) (fn : AluFn) (y : BitVec 2) (x : BitVec 3) : (aluPart z fn y x c).mstat = c.mstat := by simp [aluPart]
@[simp] theorem Cpu.aluPart_sstat (z : Dest) (fn : AluFn) (y : BitVec 2) (x : BitVec 3) : (aluPart z fn y x c).sstat = c.sstat := by simp [aluPart]
@[simp] theorem Cpu.aluPart_imask (z : Dest) (fn : AluFn) (y : BitVec 2) (x : BitVec 3) : (aluPart z fn y x c).imask = c.imask := by simp [aluPart]
@[simp] theorem Cpu.aluPart_icntl (z : Dest) (fn : AluFn) (y : BitVec 2) (x : BitVec 3) : (aluPart z fn y x c).icntl = c.icntl := by simp [aluPart]
@[simp] theorem Cpu.aluPart_irqLine (z : Dest) (fn : AluFn) (y : BitVec 2) (x : BitVec 3) : (aluPart z fn y x c).irqLine = c.irqLine := by simp [aluPart]
@[simp] theorem Cpu.aluPart_irqLatch (z : Dest) (fn : AluFn) (y : BitVec 2) (x : BitVec 3) : (aluPart z fn y x c).irqLatch = c.irqLatch := by simp [aluPart]
@[simp] theorem Cpu.aluPart_pcStk (z : Dest) (fn : AluFn) (y : BitVec 2) (x : BitVec 3) : (aluPart z fn y x c).pcStk = c.pcStk := by simp [aluPart]
@[simp] theorem Cpu.aluPart_cntrStk (z : Dest) (fn : AluFn) (y : BitVec 2) (x : BitVec 3) : (aluPart z fn y x c).cntrStk = c.cntrStk := by simp [aluPart]
@[simp] theorem Cpu.aluPart_statStk (z : Dest) (fn : AluFn) (y : BitVec 2) (x : BitVec 3) : (aluPart z fn y x c).statStk = c.statStk := by simp [aluPart]
@[simp] theorem Cpu.aluPart_loopStk (z : Dest) (fn : AluFn) (y : BitVec 2) (x : BitVec 3) : (aluPart z fn y x c).loopStk = c.loopStk := by simp [aluPart]

@[simp] theorem Cpu.macWrite_px (z : Dest) (q : BitVec 40) : (c.macWrite z q).px = c.px := by cases z <;> simp [Cpu.macWrite]
@[simp] theorem Cpu.macWrite_i (z : Dest) (q : BitVec 40) : (c.macWrite z q).i = c.i := by cases z <;> simp [Cpu.macWrite]
@[simp] theorem Cpu.macWrite_m (z : Dest) (q : BitVec 40) : (c.macWrite z q).m = c.m := by cases z <;> simp [Cpu.macWrite]
@[simp] theorem Cpu.macWrite_l (z : Dest) (q : BitVec 40) : (c.macWrite z q).l = c.l := by cases z <;> simp [Cpu.macWrite]
@[simp] theorem Cpu.macWrite_base (z : Dest) (q : BitVec 40) : (c.macWrite z q).base = c.base := by cases z <;> simp [Cpu.macWrite]
@[simp] theorem Cpu.macWrite_pc (z : Dest) (q : BitVec 40) : (c.macWrite z q).pc = c.pc := by cases z <;> simp [Cpu.macWrite]
@[simp] theorem Cpu.macWrite_cntr (z : Dest) (q : BitVec 40) : (c.macWrite z q).cntr = c.cntr := by cases z <;> simp [Cpu.macWrite]
@[simp] theorem Cpu.macWrite_mstat (z : Dest) (q : BitVec 40) : (c.macWrite z q).mstat = c.mstat := by cases z <;> simp [Cpu.macWrite]
@[simp] theorem Cpu.macWrite_sstat (z : Dest) (q : BitVec 40) : (c.macWrite z q).sstat = c.sstat := by cases z <;> simp [Cpu.macWrite]
@[simp] theorem Cpu.macWrite_imask (z : Dest) (q : BitVec 40) : (c.macWrite z q).imask = c.imask := by cases z <;> simp [Cpu.macWrite]
@[simp] theorem Cpu.macWrite_icntl (z : Dest) (q : BitVec 40) : (c.macWrite z q).icntl = c.icntl := by cases z <;> simp [Cpu.macWrite]
@[simp] theorem Cpu.macWrite_irqLine (z : Dest) (q : BitVec 40) : (c.macWrite z q).irqLine = c.irqLine := by cases z <;> simp [Cpu.macWrite]
@[simp] theorem Cpu.macWrite_irqLatch (z : Dest) (q : BitVec 40) : (c.macWrite z q).irqLatch = c.irqLatch := by cases z <;> simp [Cpu.macWrite]
@[simp] theorem Cpu.macWrite_pcStk (z : Dest) (q : BitVec 40) : (c.macWrite z q).pcStk = c.pcStk := by cases z <;> simp [Cpu.macWrite]
@[simp] theorem Cpu.macWrite_cntrStk (z : Dest) (q : BitVec 40) : (c.macWrite z q).cntrStk = c.cntrStk := by cases z <;> simp [Cpu.macWrite]
@[simp] theorem Cpu.macWrite_statStk (z : Dest) (q : BitVec 40) : (c.macWrite z q).statStk = c.statStk := by cases z <;> simp [Cpu.macWrite]
@[simp] theorem Cpu.macWrite_loopStk (z : Dest) (q : BitVec 40) : (c.macWrite z q).loopStk = c.loopStk := by cases z <;> simp [Cpu.macWrite]

@[simp] theorem Cpu.macPart_px (z : Dest) (fn : MacFn) (y : BitVec 2) (x : BitVec 3) : (macPart z fn y x c).px = c.px := by unfold macPart; split <;> simp
@[simp] theorem Cpu.macPart_i (z : Dest) (fn : MacFn) (y : BitVec 2) (x : BitVec 3) : (macPart z fn y x c).i = c.i := by unfold macPart; split <;> simp
@[simp] theorem Cpu.macPart_m (z : Dest) (fn : MacFn) (y : BitVec 2) (x : BitVec 3) : (macPart z fn y x c).m = c.m := by unfold macPart; split <;> simp
@[simp] theorem Cpu.macPart_l (z : Dest) (fn : MacFn) (y : BitVec 2) (x : BitVec 3) : (macPart z fn y x c).l = c.l := by unfold macPart; split <;> simp
@[simp] theorem Cpu.macPart_base (z : Dest) (fn : MacFn) (y : BitVec 2) (x : BitVec 3) : (macPart z fn y x c).base = c.base := by unfold macPart; split <;> simp
@[simp] theorem Cpu.macPart_pc (z : Dest) (fn : MacFn) (y : BitVec 2) (x : BitVec 3) : (macPart z fn y x c).pc = c.pc := by unfold macPart; split <;> simp
@[simp] theorem Cpu.macPart_cntr (z : Dest) (fn : MacFn) (y : BitVec 2) (x : BitVec 3) : (macPart z fn y x c).cntr = c.cntr := by unfold macPart; split <;> simp
@[simp] theorem Cpu.macPart_mstat (z : Dest) (fn : MacFn) (y : BitVec 2) (x : BitVec 3) : (macPart z fn y x c).mstat = c.mstat := by unfold macPart; split <;> simp
@[simp] theorem Cpu.macPart_sstat (z : Dest) (fn : MacFn) (y : BitVec 2) (x : BitVec 3) : (macPart z fn y x c).sstat = c.sstat := by unfold macPart; split <;> simp
@[simp] theorem Cpu.macPart_imask (z : Dest) (fn : MacFn) (y : BitVec 2) (x : BitVec 3) : (macPart z fn y x c).imask = c.imask := by unfold macPart; split <;> simp
@[simp] theorem Cpu.macPart_icntl (z : Dest) (fn : MacFn) (y : BitVec 2) (x : BitVec 3) : (macPart z fn y x c).icntl = c.icntl := by unfold macPart; split <;> simp
@[simp] theorem Cpu.macPart_irqLine (z : Dest) (fn : MacFn) (y : BitVec 2) (x : BitVec 3) : (macPart z fn y x c).irqLine = c.irqLine := by unfold macPart; split <;> simp
@[simp] theorem Cpu.macPart_irqLatch (z : Dest) (fn : MacFn) (y : BitVec 2) (x : BitVec 3) : (macPart z fn y x c).irqLatch = c.irqLatch := by unfold macPart; split <;> simp
@[simp] theorem Cpu.macPart_pcStk (z : Dest) (fn : MacFn) (y : BitVec 2) (x : BitVec 3) : (macPart z fn y x c).pcStk = c.pcStk := by unfold macPart; split <;> simp
@[simp] theorem Cpu.macPart_cntrStk (z : Dest) (fn : MacFn) (y : BitVec 2) (x : BitVec 3) : (macPart z fn y x c).cntrStk = c.cntrStk := by unfold macPart; split <;> simp
@[simp] theorem Cpu.macPart_statStk (z : Dest) (fn : MacFn) (y : BitVec 2) (x : BitVec 3) : (macPart z fn y x c).statStk = c.statStk := by unfold macPart; split <;> simp
@[simp] theorem Cpu.macPart_loopStk (z : Dest) (fn : MacFn) (y : BitVec 2) (x : BitVec 3) : (macPart z fn y x c).loopStk = c.loopStk := by unfold macPart; split <;> simp

@[simp] theorem Cpu.srWrite_px (g : Bool) (v : BitVec 32) : (c.srWrite g v).px = c.px := by simp [Cpu.srWrite]
@[simp] theorem Cpu.srWrite_i (g : Bool) (v : BitVec 32) : (c.srWrite g v).i = c.i := by simp [Cpu.srWrite]
@[simp] theorem Cpu.srWrite_m (g : Bool) (v : BitVec 32) : (c.srWrite g v).m = c.m := by simp [Cpu.srWrite]
@[simp] theorem Cpu.srWrite_l (g : Bool) (v : BitVec 32) : (c.srWrite g v).l = c.l := by simp [Cpu.srWrite]
@[simp] theorem Cpu.srWrite_base (g : Bool) (v : BitVec 32) : (c.srWrite g v).base = c.base := by simp [Cpu.srWrite]
@[simp] theorem Cpu.srWrite_pc (g : Bool) (v : BitVec 32) : (c.srWrite g v).pc = c.pc := by simp [Cpu.srWrite]
@[simp] theorem Cpu.srWrite_cntr (g : Bool) (v : BitVec 32) : (c.srWrite g v).cntr = c.cntr := by simp [Cpu.srWrite]
@[simp] theorem Cpu.srWrite_astat (g : Bool) (v : BitVec 32) : (c.srWrite g v).astat = c.astat := by simp [Cpu.srWrite]
@[simp] theorem Cpu.srWrite_mstat (g : Bool) (v : BitVec 32) : (c.srWrite g v).mstat = c.mstat := by simp [Cpu.srWrite]
@[simp] theorem Cpu.srWrite_sstat (g : Bool) (v : BitVec 32) : (c.srWrite g v).sstat = c.sstat := by simp [Cpu.srWrite]
@[simp] theorem Cpu.srWrite_imask (g : Bool) (v : BitVec 32) : (c.srWrite g v).imask = c.imask := by simp [Cpu.srWrite]
@[simp] theorem Cpu.srWrite_icntl (g : Bool) (v : BitVec 32) : (c.srWrite g v).icntl = c.icntl := by simp [Cpu.srWrite]
@[simp] theorem Cpu.srWrite_irqLine (g : Bool) (v : BitVec 32) : (c.srWrite g v).irqLine = c.irqLine := by simp [Cpu.srWrite]
@[simp] theorem Cpu.srWrite_irqLatch (g : Bool) (v : BitVec 32) : (c.srWrite g v).irqLatch = c.irqLatch := by simp [Cpu.srWrite]
@[simp] theorem Cpu.srWrite_pcStk (g : Bool) (v : BitVec 32) : (c.srWrite g v).pcStk = c.pcStk := by simp [Cpu.srWrite]
@[simp] theorem Cpu.srWrite_cntrStk (g : Bool) (v : BitVec 32) : (c.srWrite g v).cntrStk = c.cntrStk := by simp [Cpu.srWrite]
@[simp] theorem Cpu.srWrite_statStk (g : Bool) (v : BitVec 32) : (c.srWrite g v).statStk = c.statStk := by simp [Cpu.srWrite]
@[simp] theorem Cpu.srWrite_loopStk (g : Bool) (v : BitVec 32) : (c.srWrite g v).loopStk = c.loopStk := by simp [Cpu.srWrite]

@[simp] theorem Cpu.setSe_px (e : Int) : (c.setSe e).px = c.px := by simp [Cpu.setSe]
@[simp] theorem Cpu.setSe_i (e : Int) : (c.setSe e).i = c.i := by simp [Cpu.setSe]
@[simp] theorem Cpu.setSe_m (e : Int) : (c.setSe e).m = c.m := by simp [Cpu.setSe]
@[simp] theorem Cpu.setSe_l (e : Int) : (c.setSe e).l = c.l := by simp [Cpu.setSe]
@[simp] theorem Cpu.setSe_base (e : Int) : (c.setSe e).base = c.base := by simp [Cpu.setSe]
@[simp] theorem Cpu.setSe_pc (e : Int) : (c.setSe e).pc = c.pc := by simp [Cpu.setSe]
@[simp] theorem Cpu.setSe_cntr (e : Int) : (c.setSe e).cntr = c.cntr := by simp [Cpu.setSe]
@[simp] theorem Cpu.setSe_astat (e : Int) : (c.setSe e).astat = c.astat := by simp [Cpu.setSe]
@[simp] theorem Cpu.setSe_mstat (e : Int) : (c.setSe e).mstat = c.mstat := by simp [Cpu.setSe]
@[simp] theorem Cpu.setSe_sstat (e : Int) : (c.setSe e).sstat = c.sstat := by simp [Cpu.setSe]
@[simp] theorem Cpu.setSe_imask (e : Int) : (c.setSe e).imask = c.imask := by simp [Cpu.setSe]
@[simp] theorem Cpu.setSe_icntl (e : Int) : (c.setSe e).icntl = c.icntl := by simp [Cpu.setSe]
@[simp] theorem Cpu.setSe_irqLine (e : Int) : (c.setSe e).irqLine = c.irqLine := by simp [Cpu.setSe]
@[simp] theorem Cpu.setSe_irqLatch (e : Int) : (c.setSe e).irqLatch = c.irqLatch := by simp [Cpu.setSe]
@[simp] theorem Cpu.setSe_pcStk (e : Int) : (c.setSe e).pcStk = c.pcStk := by simp [Cpu.setSe]
@[simp] theorem Cpu.setSe_cntrStk (e : Int) : (c.setSe e).cntrStk = c.cntrStk := by simp [Cpu.setSe]
@[simp] theorem Cpu.setSe_statStk (e : Int) : (c.setSe e).statStk = c.statStk := by simp [Cpu.setSe]
@[simp] theorem Cpu.setSe_loopStk (e : Int) : (c.setSe e).loopStk = c.loopStk := by simp [Cpu.setSe]

@[simp] theorem Cpu.expHi_px (x : Word) : (expHi x c).px = c.px := by simp [expHi]
@[simp] theorem Cpu.expHi_i (x : Word) : (expHi x c).i = c.i := by simp [expHi]
@[simp] theorem Cpu.expHi_m (x : Word) : (expHi x c).m = c.m := by simp [expHi]
@[simp] theorem Cpu.expHi_l (x : Word) : (expHi x c).l = c.l := by simp [expHi]
@[simp] theorem Cpu.expHi_base (x : Word) : (expHi x c).base = c.base := by simp [expHi]
@[simp] theorem Cpu.expHi_pc (x : Word) : (expHi x c).pc = c.pc := by simp [expHi]
@[simp] theorem Cpu.expHi_cntr (x : Word) : (expHi x c).cntr = c.cntr := by simp [expHi]
@[simp] theorem Cpu.expHi_mstat (x : Word) : (expHi x c).mstat = c.mstat := by simp [expHi]
@[simp] theorem Cpu.expHi_sstat (x : Word) : (expHi x c).sstat = c.sstat := by simp [expHi]
@[simp] theorem Cpu.expHi_imask (x : Word) : (expHi x c).imask = c.imask := by simp [expHi]
@[simp] theorem Cpu.expHi_icntl (x : Word) : (expHi x c).icntl = c.icntl := by simp [expHi]
@[simp] theorem Cpu.expHi_irqLine (x : Word) : (expHi x c).irqLine = c.irqLine := by simp [expHi]
@[simp] theorem Cpu.expHi_irqLatch (x : Word) : (expHi x c).irqLatch = c.irqLatch := by simp [expHi]
@[simp] theorem Cpu.expHi_pcStk (x : Word) : (expHi x c).pcStk = c.pcStk := by simp [expHi]
@[simp] theorem Cpu.expHi_cntrStk (x : Word) : (expHi x c).cntrStk = c.cntrStk := by simp [expHi]
@[simp] theorem Cpu.expHi_statStk (x : Word) : (expHi x c).statStk = c.statStk := by simp [expHi]
@[simp] theorem Cpu.expHi_loopStk (x : Word) : (expHi x c).loopStk = c.loopStk := by simp [expHi]

@[simp] theorem Cpu.expHix_px (x : Word) : (expHix x c).px = c.px := by unfold expHix; split <;> simp
@[simp] theorem Cpu.expHix_i (x : Word) : (expHix x c).i = c.i := by unfold expHix; split <;> simp
@[simp] theorem Cpu.expHix_m (x : Word) : (expHix x c).m = c.m := by unfold expHix; split <;> simp
@[simp] theorem Cpu.expHix_l (x : Word) : (expHix x c).l = c.l := by unfold expHix; split <;> simp
@[simp] theorem Cpu.expHix_base (x : Word) : (expHix x c).base = c.base := by unfold expHix; split <;> simp
@[simp] theorem Cpu.expHix_pc (x : Word) : (expHix x c).pc = c.pc := by unfold expHix; split <;> simp
@[simp] theorem Cpu.expHix_cntr (x : Word) : (expHix x c).cntr = c.cntr := by unfold expHix; split <;> simp
@[simp] theorem Cpu.expHix_mstat (x : Word) : (expHix x c).mstat = c.mstat := by unfold expHix; split <;> simp
@[simp] theorem Cpu.expHix_sstat (x : Word) : (expHix x c).sstat = c.sstat := by unfold expHix; split <;> simp
@[simp] theorem Cpu.expHix_imask (x : Word) : (expHix x c).imask = c.imask := by unfold expHix; split <;> simp
@[simp] theorem Cpu.expHix_icntl (x : Word) : (expHix x c).icntl = c.icntl := by unfold expHix; split <;> simp
@[simp] theorem Cpu.expHix_irqLine (x : Word) : (expHix x c).irqLine = c.irqLine := by unfold expHix; split <;> simp
@[simp] theorem Cpu.expHix_irqLatch (x : Word) : (expHix x c).irqLatch = c.irqLatch := by unfold expHix; split <;> simp
@[simp] theorem Cpu.expHix_pcStk (x : Word) : (expHix x c).pcStk = c.pcStk := by unfold expHix; split <;> simp
@[simp] theorem Cpu.expHix_cntrStk (x : Word) : (expHix x c).cntrStk = c.cntrStk := by unfold expHix; split <;> simp
@[simp] theorem Cpu.expHix_statStk (x : Word) : (expHix x c).statStk = c.statStk := by unfold expHix; split <;> simp
@[simp] theorem Cpu.expHix_loopStk (x : Word) : (expHix x c).loopStk = c.loopStk := by unfold expHix; split <;> simp

@[simp] theorem Cpu.expLo_px (x : Word) : (expLo x c).px = c.px := by unfold expLo; split <;> simp
@[simp] theorem Cpu.expLo_i (x : Word) : (expLo x c).i = c.i := by unfold expLo; split <;> simp
@[simp] theorem Cpu.expLo_m (x : Word) : (expLo x c).m = c.m := by unfold expLo; split <;> simp
@[simp] theorem Cpu.expLo_l (x : Word) : (expLo x c).l = c.l := by unfold expLo; split <;> simp
@[simp] theorem Cpu.expLo_base (x : Word) : (expLo x c).base = c.base := by unfold expLo; split <;> simp
@[simp] theorem Cpu.expLo_pc (x : Word) : (expLo x c).pc = c.pc := by unfold expLo; split <;> simp
@[simp] theorem Cpu.expLo_cntr (x : Word) : (expLo x c).cntr = c.cntr := by unfold expLo; split <;> simp
@[simp] theorem Cpu.expLo_astat (x : Word) : (expLo x c).astat = c.astat := by unfold expLo; split <;> simp
@[simp] theorem Cpu.expLo_mstat (x : Word) : (expLo x c).mstat = c.mstat := by unfold expLo; split <;> simp
@[simp] theorem Cpu.expLo_sstat (x : Word) : (expLo x c).sstat = c.sstat := by unfold expLo; split <;> simp
@[simp] theorem Cpu.expLo_imask (x : Word) : (expLo x c).imask = c.imask := by unfold expLo; split <;> simp
@[simp] theorem Cpu.expLo_icntl (x : Word) : (expLo x c).icntl = c.icntl := by unfold expLo; split <;> simp
@[simp] theorem Cpu.expLo_irqLine (x : Word) : (expLo x c).irqLine = c.irqLine := by unfold expLo; split <;> simp
@[simp] theorem Cpu.expLo_irqLatch (x : Word) : (expLo x c).irqLatch = c.irqLatch := by unfold expLo; split <;> simp
@[simp] theorem Cpu.expLo_pcStk (x : Word) : (expLo x c).pcStk = c.pcStk := by unfold expLo; split <;> simp
@[simp] theorem Cpu.expLo_cntrStk (x : Word) : (expLo x c).cntrStk = c.cntrStk := by unfold expLo; split <;> simp
@[simp] theorem Cpu.expLo_statStk (x : Word) : (expLo x c).statStk = c.statStk := by unfold expLo; split <;> simp
@[simp] theorem Cpu.expLo_loopStk (x : Word) : (expLo x c).loopStk = c.loopStk := by unfold expLo; split <;> simp

@[simp] theorem Cpu.expAdj_px (x : Word) : (expAdj x c).px = c.px := by unfold expAdj; split <;> simp
@[simp] theorem Cpu.expAdj_i (x : Word) : (expAdj x c).i = c.i := by unfold expAdj; split <;> simp
@[simp] theorem Cpu.expAdj_m (x : Word) : (expAdj x c).m = c.m := by unfold expAdj; split <;> simp
@[simp] theorem Cpu.expAdj_l (x : Word) : (expAdj x c).l = c.l := by unfold expAdj; split <;> simp
@[simp] theorem Cpu.expAdj_base (x : Word) : (expAdj x c).base = c.base := by unfold expAdj; split <;> simp
@[simp] theorem Cpu.expAdj_pc (x : Word) : (expAdj x c).pc = c.pc := by unfold expAdj; split <;> simp
@[simp] theorem Cpu.expAdj_cntr (x : Word) : (expAdj x c).cntr = c.cntr := by unfold expAdj; split <;> simp
@[simp] theorem Cpu.expAdj_astat (x : Word) : (expAdj x c).astat = c.astat := by unfold expAdj; split <;> simp
@[simp] theorem Cpu.expAdj_mstat (x : Word) : (expAdj x c).mstat = c.mstat := by unfold expAdj; split <;> simp
@[simp] theorem Cpu.expAdj_sstat (x : Word) : (expAdj x c).sstat = c.sstat := by unfold expAdj; split <;> simp
@[simp] theorem Cpu.expAdj_imask (x : Word) : (expAdj x c).imask = c.imask := by unfold expAdj; split <;> simp
@[simp] theorem Cpu.expAdj_icntl (x : Word) : (expAdj x c).icntl = c.icntl := by unfold expAdj; split <;> simp
@[simp] theorem Cpu.expAdj_irqLine (x : Word) : (expAdj x c).irqLine = c.irqLine := by unfold expAdj; split <;> simp
@[simp] theorem Cpu.expAdj_irqLatch (x : Word) : (expAdj x c).irqLatch = c.irqLatch := by unfold expAdj; split <;> simp
@[simp] theorem Cpu.expAdj_pcStk (x : Word) : (expAdj x c).pcStk = c.pcStk := by unfold expAdj; split <;> simp
@[simp] theorem Cpu.expAdj_cntrStk (x : Word) : (expAdj x c).cntrStk = c.cntrStk := by unfold expAdj; split <;> simp
@[simp] theorem Cpu.expAdj_statStk (x : Word) : (expAdj x c).statStk = c.statStk := by unfold expAdj; split <;> simp
@[simp] theorem Cpu.expAdj_loopStk (x : Word) : (expAdj x c).loopStk = c.loopStk := by unfold expAdj; split <;> simp

@[simp] theorem Cpu.shiftPart_px (f : ShFn) (x : BitVec 3) (n : Int) : (shiftPart f x n c).px = c.px := by cases f <;> simp [shiftPart]
@[simp] theorem Cpu.shiftPart_i (f : ShFn) (x : BitVec 3) (n : Int) : (shiftPart f x n c).i = c.i := by cases f <;> simp [shiftPart]
@[simp] theorem Cpu.shiftPart_m (f : ShFn) (x : BitVec 3) (n : Int) : (shiftPart f x n c).m = c.m := by cases f <;> simp [shiftPart]
@[simp] theorem Cpu.shiftPart_l (f : ShFn) (x : BitVec 3) (n : Int) : (shiftPart f x n c).l = c.l := by cases f <;> simp [shiftPart]
@[simp] theorem Cpu.shiftPart_base (f : ShFn) (x : BitVec 3) (n : Int) : (shiftPart f x n c).base = c.base := by cases f <;> simp [shiftPart]
@[simp] theorem Cpu.shiftPart_pc (f : ShFn) (x : BitVec 3) (n : Int) : (shiftPart f x n c).pc = c.pc := by cases f <;> simp [shiftPart]
@[simp] theorem Cpu.shiftPart_cntr (f : ShFn) (x : BitVec 3) (n : Int) : (shiftPart f x n c).cntr = c.cntr := by cases f <;> simp [shiftPart]
@[simp] theorem Cpu.shiftPart_mstat (f : ShFn) (x : BitVec 3) (n : Int) : (shiftPart f x n c).mstat = c.mstat := by cases f <;> simp [shiftPart]
@[simp] theorem Cpu.shiftPart_sstat (f : ShFn) (x : BitVec 3) (n : Int) : (shiftPart f x n c).sstat = c.sstat := by cases f <;> simp [shiftPart]
@[simp] theorem Cpu.shiftPart_imask (f : ShFn) (x : BitVec 3) (n : Int) : (shiftPart f x n c).imask = c.imask := by cases f <;> simp [shiftPart]
@[simp] theorem Cpu.shiftPart_icntl (f : ShFn) (x : BitVec 3) (n : Int) : (shiftPart f x n c).icntl = c.icntl := by cases f <;> simp [shiftPart]
@[simp] theorem Cpu.shiftPart_irqLine (f : ShFn) (x : BitVec 3) (n : Int) : (shiftPart f x n c).irqLine = c.irqLine := by cases f <;> simp [shiftPart]
@[simp] theorem Cpu.shiftPart_irqLatch (f : ShFn) (x : BitVec 3) (n : Int) : (shiftPart f x n c).irqLatch = c.irqLatch := by cases f <;> simp [shiftPart]
@[simp] theorem Cpu.shiftPart_pcStk (f : ShFn) (x : BitVec 3) (n : Int) : (shiftPart f x n c).pcStk = c.pcStk := by cases f <;> simp [shiftPart]
@[simp] theorem Cpu.shiftPart_cntrStk (f : ShFn) (x : BitVec 3) (n : Int) : (shiftPart f x n c).cntrStk = c.cntrStk := by cases f <;> simp [shiftPart]
@[simp] theorem Cpu.shiftPart_statStk (f : ShFn) (x : BitVec 3) (n : Int) : (shiftPart f x n c).statStk = c.statStk := by cases f <;> simp [shiftPart]
@[simp] theorem Cpu.shiftPart_loopStk (f : ShFn) (x : BitVec 3) (n : Int) : (shiftPart f x n c).loopStk = c.loopStk := by cases f <;> simp [shiftPart]

@[simp] theorem Cpu.shiftBySe_px (f : ShFn) (x : BitVec 3) : (shiftBySe f x c).px = c.px := by simp [shiftBySe]
@[simp] theorem Cpu.shiftBySe_i (f : ShFn) (x : BitVec 3) : (shiftBySe f x c).i = c.i := by simp [shiftBySe]
@[simp] theorem Cpu.shiftBySe_m (f : ShFn) (x : BitVec 3) : (shiftBySe f x c).m = c.m := by simp [shiftBySe]
@[simp] theorem Cpu.shiftBySe_l (f : ShFn) (x : BitVec 3) : (shiftBySe f x c).l = c.l := by simp [shiftBySe]
@[simp] theorem Cpu.shiftBySe_base (f : ShFn) (x : BitVec 3) : (shiftBySe f x c).base = c.base := by simp [shiftBySe]
@[simp] theorem Cpu.shiftBySe_pc (f : ShFn) (x : BitVec 3) : (shiftBySe f x c).pc = c.pc := by simp [shiftBySe]
@[simp] theorem Cpu.shiftBySe_cntr (f : ShFn) (x : BitVec 3) : (shiftBySe f x c).cntr = c.cntr := by simp [shiftBySe]
@[simp] theorem Cpu.shiftBySe_mstat (f : ShFn) (x : BitVec 3) : (shiftBySe f x c).mstat = c.mstat := by simp [shiftBySe]
@[simp] theorem Cpu.shiftBySe_sstat (f : ShFn) (x : BitVec 3) : (shiftBySe f x c).sstat = c.sstat := by simp [shiftBySe]
@[simp] theorem Cpu.shiftBySe_imask (f : ShFn) (x : BitVec 3) : (shiftBySe f x c).imask = c.imask := by simp [shiftBySe]
@[simp] theorem Cpu.shiftBySe_icntl (f : ShFn) (x : BitVec 3) : (shiftBySe f x c).icntl = c.icntl := by simp [shiftBySe]
@[simp] theorem Cpu.shiftBySe_irqLine (f : ShFn) (x : BitVec 3) : (shiftBySe f x c).irqLine = c.irqLine := by simp [shiftBySe]
@[simp] theorem Cpu.shiftBySe_irqLatch (f : ShFn) (x : BitVec 3) : (shiftBySe f x c).irqLatch = c.irqLatch := by simp [shiftBySe]
@[simp] theorem Cpu.shiftBySe_pcStk (f : ShFn) (x : BitVec 3) : (shiftBySe f x c).pcStk = c.pcStk := by simp [shiftBySe]
@[simp] theorem Cpu.shiftBySe_cntrStk (f : ShFn) (x : BitVec 3) : (shiftBySe f x c).cntrStk = c.cntrStk := by simp [shiftBySe]
@[simp] theorem Cpu.shiftBySe_statStk (f : ShFn) (x : BitVec 3) : (shiftBySe f x c).statStk = c.statStk := by simp [shiftBySe]
@[simp] theorem Cpu.shiftBySe_loopStk (f : ShFn) (x : BitVec 3) : (shiftBySe f x c).loopStk = c.loopStk := by simp [shiftBySe]

@[simp] theorem Cpu.divideSign_px (y : BitVec 2) (x : BitVec 3) : (divideSign y x c).px = c.px := by simp [divideSign]
@[simp] theorem Cpu.divideSign_i (y : BitVec 2) (x : BitVec 3) : (divideSign y x c).i = c.i := by simp [divideSign]
@[simp] theorem Cpu.divideSign_m (y : BitVec 2) (x : BitVec 3) : (divideSign y x c).m = c.m := by simp [divideSign]
@[simp] theorem Cpu.divideSign_l (y : BitVec 2) (x : BitVec 3) : (divideSign y x c).l = c.l := by simp [divideSign]
@[simp] theorem Cpu.divideSign_base (y : BitVec 2) (x : BitVec 3) : (divideSign y x c).base = c.base := by simp [divideSign]
@[simp] theorem Cpu.divideSign_pc (y : BitVec 2) (x : BitVec 3) : (divideSign y x c).pc = c.pc := by simp [divideSign]
@[simp] theorem Cpu.divideSign_cntr (y : BitVec 2) (x : BitVec 3) : (divideSign y x c).cntr = c.cntr := by simp [divideSign]
@[simp] theorem Cpu.divideSign_mstat (y : BitVec 2) (x : BitVec 3) : (divideSign y x c).mstat = c.mstat := by simp [divideSign]
@[simp] theorem Cpu.divideSign_sstat (y : BitVec 2) (x : BitVec 3) : (divideSign y x c).sstat = c.sstat := by simp [divideSign]
@[simp] theorem Cpu.divideSign_imask (y : BitVec 2) (x : BitVec 3) : (divideSign y x c).imask = c.imask := by simp [divideSign]
@[simp] theorem Cpu.divideSign_icntl (y : BitVec 2) (x : BitVec 3) : (divideSign y x c).icntl = c.icntl := by simp [divideSign]
@[simp] theorem Cpu.divideSign_irqLine (y : BitVec 2) (x : BitVec 3) : (divideSign y x c).irqLine = c.irqLine := by simp [divideSign]
@[simp] theorem Cpu.divideSign_irqLatch (y : BitVec 2) (x : BitVec 3) : (divideSign y x c).irqLatch = c.irqLatch := by simp [divideSign]
@[simp] theorem Cpu.divideSign_pcStk (y : BitVec 2) (x : BitVec 3) : (divideSign y x c).pcStk = c.pcStk := by simp [divideSign]
@[simp] theorem Cpu.divideSign_cntrStk (y : BitVec 2) (x : BitVec 3) : (divideSign y x c).cntrStk = c.cntrStk := by simp [divideSign]
@[simp] theorem Cpu.divideSign_statStk (y : BitVec 2) (x : BitVec 3) : (divideSign y x c).statStk = c.statStk := by simp [divideSign]
@[simp] theorem Cpu.divideSign_loopStk (y : BitVec 2) (x : BitVec 3) : (divideSign y x c).loopStk = c.loopStk := by simp [divideSign]

@[simp] theorem Cpu.divideStep_px (x : BitVec 3) : (divideStep x c).px = c.px := by simp [divideStep]
@[simp] theorem Cpu.divideStep_i (x : BitVec 3) : (divideStep x c).i = c.i := by simp [divideStep]
@[simp] theorem Cpu.divideStep_m (x : BitVec 3) : (divideStep x c).m = c.m := by simp [divideStep]
@[simp] theorem Cpu.divideStep_l (x : BitVec 3) : (divideStep x c).l = c.l := by simp [divideStep]
@[simp] theorem Cpu.divideStep_base (x : BitVec 3) : (divideStep x c).base = c.base := by simp [divideStep]
@[simp] theorem Cpu.divideStep_pc (x : BitVec 3) : (divideStep x c).pc = c.pc := by simp [divideStep]
@[simp] theorem Cpu.divideStep_cntr (x : BitVec 3) : (divideStep x c).cntr = c.cntr := by simp [divideStep]
@[simp] theorem Cpu.divideStep_mstat (x : BitVec 3) : (divideStep x c).mstat = c.mstat := by simp [divideStep]
@[simp] theorem Cpu.divideStep_sstat (x : BitVec 3) : (divideStep x c).sstat = c.sstat := by simp [divideStep]
@[simp] theorem Cpu.divideStep_imask (x : BitVec 3) : (divideStep x c).imask = c.imask := by simp [divideStep]
@[simp] theorem Cpu.divideStep_icntl (x : BitVec 3) : (divideStep x c).icntl = c.icntl := by simp [divideStep]
@[simp] theorem Cpu.divideStep_irqLine (x : BitVec 3) : (divideStep x c).irqLine = c.irqLine := by simp [divideStep]
@[simp] theorem Cpu.divideStep_irqLatch (x : BitVec 3) : (divideStep x c).irqLatch = c.irqLatch := by simp [divideStep]
@[simp] theorem Cpu.divideStep_pcStk (x : BitVec 3) : (divideStep x c).pcStk = c.pcStk := by simp [divideStep]
@[simp] theorem Cpu.divideStep_cntrStk (x : BitVec 3) : (divideStep x c).cntrStk = c.cntrStk := by simp [divideStep]
@[simp] theorem Cpu.divideStep_statStk (x : BitVec 3) : (divideStep x c).statStk = c.statStk := by simp [divideStep]
@[simp] theorem Cpu.divideStep_loopStk (x : BitVec 3) : (divideStep x c).loopStk = c.loopStk := by simp [divideStep]

@[simp] theorem Cpu.saturateMr_px : (saturateMr c).px = c.px := by unfold saturateMr; split <;> simp
@[simp] theorem Cpu.saturateMr_i : (saturateMr c).i = c.i := by unfold saturateMr; split <;> simp
@[simp] theorem Cpu.saturateMr_m : (saturateMr c).m = c.m := by unfold saturateMr; split <;> simp
@[simp] theorem Cpu.saturateMr_l : (saturateMr c).l = c.l := by unfold saturateMr; split <;> simp
@[simp] theorem Cpu.saturateMr_base : (saturateMr c).base = c.base := by unfold saturateMr; split <;> simp
@[simp] theorem Cpu.saturateMr_pc : (saturateMr c).pc = c.pc := by unfold saturateMr; split <;> simp
@[simp] theorem Cpu.saturateMr_cntr : (saturateMr c).cntr = c.cntr := by unfold saturateMr; split <;> simp
@[simp] theorem Cpu.saturateMr_astat : (saturateMr c).astat = c.astat := by unfold saturateMr; split <;> simp
@[simp] theorem Cpu.saturateMr_mstat : (saturateMr c).mstat = c.mstat := by unfold saturateMr; split <;> simp
@[simp] theorem Cpu.saturateMr_sstat : (saturateMr c).sstat = c.sstat := by unfold saturateMr; split <;> simp
@[simp] theorem Cpu.saturateMr_imask : (saturateMr c).imask = c.imask := by unfold saturateMr; split <;> simp
@[simp] theorem Cpu.saturateMr_icntl : (saturateMr c).icntl = c.icntl := by unfold saturateMr; split <;> simp
@[simp] theorem Cpu.saturateMr_irqLine : (saturateMr c).irqLine = c.irqLine := by unfold saturateMr; split <;> simp
@[simp] theorem Cpu.saturateMr_irqLatch : (saturateMr c).irqLatch = c.irqLatch := by unfold saturateMr; split <;> simp
@[simp] theorem Cpu.saturateMr_pcStk : (saturateMr c).pcStk = c.pcStk := by unfold saturateMr; split <;> simp
@[simp] theorem Cpu.saturateMr_cntrStk : (saturateMr c).cntrStk = c.cntrStk := by unfold saturateMr; split <;> simp
@[simp] theorem Cpu.saturateMr_statStk : (saturateMr c).statStk = c.statStk := by unfold saturateMr; split <;> simp
@[simp] theorem Cpu.saturateMr_loopStk : (saturateMr c).loopStk = c.loopStk := by unfold saturateMr; split <;> simp

@[simp] theorem Cpu.computePart_px (z : Dest) (f : Amf) (y : BitVec 2) (x : BitVec 3) : (computePart z f y x c).px = c.px := by cases f <;> simp [computePart]
@[simp] theorem Cpu.computePart_i (z : Dest) (f : Amf) (y : BitVec 2) (x : BitVec 3) : (computePart z f y x c).i = c.i := by cases f <;> simp [computePart]
@[simp] theorem Cpu.computePart_m (z : Dest) (f : Amf) (y : BitVec 2) (x : BitVec 3) : (computePart z f y x c).m = c.m := by cases f <;> simp [computePart]
@[simp] theorem Cpu.computePart_l (z : Dest) (f : Amf) (y : BitVec 2) (x : BitVec 3) : (computePart z f y x c).l = c.l := by cases f <;> simp [computePart]
@[simp] theorem Cpu.computePart_base (z : Dest) (f : Amf) (y : BitVec 2) (x : BitVec 3) : (computePart z f y x c).base = c.base := by cases f <;> simp [computePart]
@[simp] theorem Cpu.computePart_pc (z : Dest) (f : Amf) (y : BitVec 2) (x : BitVec 3) : (computePart z f y x c).pc = c.pc := by cases f <;> simp [computePart]
@[simp] theorem Cpu.computePart_cntr (z : Dest) (f : Amf) (y : BitVec 2) (x : BitVec 3) : (computePart z f y x c).cntr = c.cntr := by cases f <;> simp [computePart]
@[simp] theorem Cpu.computePart_mstat (z : Dest) (f : Amf) (y : BitVec 2) (x : BitVec 3) : (computePart z f y x c).mstat = c.mstat := by cases f <;> simp [computePart]
@[simp] theorem Cpu.computePart_sstat (z : Dest) (f : Amf) (y : BitVec 2) (x : BitVec 3) : (computePart z f y x c).sstat = c.sstat := by cases f <;> simp [computePart]
@[simp] theorem Cpu.computePart_imask (z : Dest) (f : Amf) (y : BitVec 2) (x : BitVec 3) : (computePart z f y x c).imask = c.imask := by cases f <;> simp [computePart]
@[simp] theorem Cpu.computePart_icntl (z : Dest) (f : Amf) (y : BitVec 2) (x : BitVec 3) : (computePart z f y x c).icntl = c.icntl := by cases f <;> simp [computePart]
@[simp] theorem Cpu.computePart_irqLine (z : Dest) (f : Amf) (y : BitVec 2) (x : BitVec 3) : (computePart z f y x c).irqLine = c.irqLine := by cases f <;> simp [computePart]
@[simp] theorem Cpu.computePart_irqLatch (z : Dest) (f : Amf) (y : BitVec 2) (x : BitVec 3) : (computePart z f y x c).irqLatch = c.irqLatch := by cases f <;> simp [computePart]
@[simp] theorem Cpu.computePart_pcStk (z : Dest) (f : Amf) (y : BitVec 2) (x : BitVec 3) : (computePart z f y x c).pcStk = c.pcStk := by cases f <;> simp [computePart]
@[simp] theorem Cpu.computePart_cntrStk (z : Dest) (f : Amf) (y : BitVec 2) (x : BitVec 3) : (computePart z f y x c).cntrStk = c.cntrStk := by cases f <;> simp [computePart]
@[simp] theorem Cpu.computePart_statStk (z : Dest) (f : Amf) (y : BitVec 2) (x : BitVec 3) : (computePart z f y x c).statStk = c.statStk := by cases f <;> simp [computePart]
@[simp] theorem Cpu.computePart_loopStk (z : Dest) (f : Amf) (y : BitVec 2) (x : BitVec 3) : (computePart z f y x c).loopStk = c.loopStk := by cases f <;> simp [computePart]

@[simp] theorem Cpu.driveLine_bank0 (n : Fin Config.numIrq) (b : Bool) : (c.driveLine n b).bank0 = c.bank0 := rfl
@[simp] theorem Cpu.driveLine_bank1 (n : Fin Config.numIrq) (b : Bool) : (c.driveLine n b).bank1 = c.bank1 := rfl
@[simp] theorem Cpu.driveLine_px (n : Fin Config.numIrq) (b : Bool) : (c.driveLine n b).px = c.px := rfl
@[simp] theorem Cpu.driveLine_i (n : Fin Config.numIrq) (b : Bool) : (c.driveLine n b).i = c.i := rfl
@[simp] theorem Cpu.driveLine_m (n : Fin Config.numIrq) (b : Bool) : (c.driveLine n b).m = c.m := rfl
@[simp] theorem Cpu.driveLine_l (n : Fin Config.numIrq) (b : Bool) : (c.driveLine n b).l = c.l := rfl
@[simp] theorem Cpu.driveLine_base (n : Fin Config.numIrq) (b : Bool) : (c.driveLine n b).base = c.base := rfl
@[simp] theorem Cpu.driveLine_pc (n : Fin Config.numIrq) (b : Bool) : (c.driveLine n b).pc = c.pc := rfl
@[simp] theorem Cpu.driveLine_cntr (n : Fin Config.numIrq) (b : Bool) : (c.driveLine n b).cntr = c.cntr := rfl
@[simp] theorem Cpu.driveLine_astat (n : Fin Config.numIrq) (b : Bool) : (c.driveLine n b).astat = c.astat := rfl
@[simp] theorem Cpu.driveLine_mstat (n : Fin Config.numIrq) (b : Bool) : (c.driveLine n b).mstat = c.mstat := rfl
@[simp] theorem Cpu.driveLine_sstat (n : Fin Config.numIrq) (b : Bool) : (c.driveLine n b).sstat = c.sstat := rfl
@[simp] theorem Cpu.driveLine_imask (n : Fin Config.numIrq) (b : Bool) : (c.driveLine n b).imask = c.imask := rfl
@[simp] theorem Cpu.driveLine_icntl (n : Fin Config.numIrq) (b : Bool) : (c.driveLine n b).icntl = c.icntl := rfl
@[simp] theorem Cpu.driveLine_pcStk (n : Fin Config.numIrq) (b : Bool) : (c.driveLine n b).pcStk = c.pcStk := rfl
@[simp] theorem Cpu.driveLine_cntrStk (n : Fin Config.numIrq) (b : Bool) : (c.driveLine n b).cntrStk = c.cntrStk := rfl
@[simp] theorem Cpu.driveLine_statStk (n : Fin Config.numIrq) (b : Bool) : (c.driveLine n b).statStk = c.statStk := rfl
@[simp] theorem Cpu.driveLine_loopStk (n : Fin Config.numIrq) (b : Bool) : (c.driveLine n b).loopStk = c.loopStk := rfl

@[simp] theorem Cpu.counterCond_bank0 : ((counterCond c).2).bank0 = c.bank0 := by unfold counterCond; dsimp only; split <;> rfl
@[simp] theorem Cpu.counterCond_bank1 : ((counterCond c).2).bank1 = c.bank1 := by unfold counterCond; dsimp only; split <;> rfl
@[simp] theorem Cpu.counterCond_px : ((counterCond c).2).px = c.px := by unfold counterCond; dsimp only; split <;> rfl
@[simp] theorem Cpu.counterCond_i : ((counterCond c).2).i = c.i := by unfold counterCond; dsimp only; split <;> rfl
@[simp] theorem Cpu.counterCond_m : ((counterCond c).2).m = c.m := by unfold counterCond; dsimp only; split <;> rfl
@[simp] theorem Cpu.counterCond_l : ((counterCond c).2).l = c.l := by unfold counterCond; dsimp only; split <;> rfl
@[simp] theorem Cpu.counterCond_base : ((counterCond c).2).base = c.base := by unfold counterCond; dsimp only; split <;> rfl
@[simp] theorem Cpu.counterCond_pc : ((counterCond c).2).pc = c.pc := by unfold counterCond; dsimp only; split <;> rfl
@[simp] theorem Cpu.counterCond_astat : ((counterCond c).2).astat = c.astat := by unfold counterCond; dsimp only; split <;> rfl
@[simp] theorem Cpu.counterCond_mstat : ((counterCond c).2).mstat = c.mstat := by unfold counterCond; dsimp only; split <;> rfl
@[simp] theorem Cpu.counterCond_imask : ((counterCond c).2).imask = c.imask := by unfold counterCond; dsimp only; split <;> rfl
@[simp] theorem Cpu.counterCond_icntl : ((counterCond c).2).icntl = c.icntl := by unfold counterCond; dsimp only; split <;> rfl
@[simp] theorem Cpu.counterCond_irqLine : ((counterCond c).2).irqLine = c.irqLine := by unfold counterCond; dsimp only; split <;> rfl
@[simp] theorem Cpu.counterCond_irqLatch : ((counterCond c).2).irqLatch = c.irqLatch := by unfold counterCond; dsimp only; split <;> rfl
@[simp] theorem Cpu.counterCond_pcStk : ((counterCond c).2).pcStk = c.pcStk := by unfold counterCond; dsimp only; split <;> rfl
@[simp] theorem Cpu.counterCond_statStk : ((counterCond c).2).statStk = c.statStk := by unfold counterCond; dsimp only; split <;> rfl
@[simp] theorem Cpu.counterCond_loopStk : ((counterCond c).2).loopStk = c.loopStk := by unfold counterCond; dsimp only; split <;> rfl

@[simp] theorem Cpu.evalCond_bank0 (k : Cond) : ((evalCond k c).2).bank0 = c.bank0 := by unfold evalCond; split <;> simp
@[simp] theorem Cpu.evalCond_bank1 (k : Cond) : ((evalCond k c).2).bank1 = c.bank1 := by unfold evalCond; split <;> simp
@[simp] theorem Cpu.evalCond_px (k : Cond) : ((evalCond k c).2).px = c.px := by unfold evalCond; split <;> simp
@[simp] theorem Cpu.evalCond_i (k : Cond) : ((evalCond k c).2).i = c.i := by unfold evalCond; split <;> simp
@[simp] theorem Cpu.evalCond_m (k : Cond) : ((evalCond k c).2).m = c.m := by unfold evalCond; split <;> simp
@[simp] theorem Cpu.evalCond_l (k : Cond) : ((evalCond k c).2).l = c.l := by unfold evalCond; split <;> simp
@[simp] theorem Cpu.evalCond_base (k : Cond) : ((evalCond k c).2).base = c.base := by unfold evalCond; split <;> simp
@[simp] theorem Cpu.evalCond_pc (k : Cond) : ((evalCond k c).2).pc = c.pc := by unfold evalCond; split <;> simp
@[simp] theorem Cpu.evalCond_astat (k : Cond) : ((evalCond k c).2).astat = c.astat := by unfold evalCond; split <;> simp
@[simp] theorem Cpu.evalCond_mstat (k : Cond) : ((evalCond k c).2).mstat = c.mstat := by unfold evalCond; split <;> simp
@[simp] theorem Cpu.evalCond_imask (k : Cond) : ((evalCond k c).2).imask = c.imask := by unfold evalCond; split <;> simp
@[simp] theorem Cpu.evalCond_icntl (k : Cond) : ((evalCond k c).2).icntl = c.icntl := by unfold evalCond; split <;> simp
@[simp] theorem Cpu.evalCond_irqLine (k : Cond) : ((evalCond k c).2).irqLine = c.irqLine := by unfold evalCond; split <;> simp
@[simp] theorem Cpu.evalCond_irqLatch (k : Cond) : ((evalCond k c).2).irqLatch = c.irqLatch := by unfold evalCond; split <;> simp
@[simp] theorem Cpu.evalCond_pcStk (k : Cond) : ((evalCond k c).2).pcStk = c.pcStk := by unfold evalCond; split <;> simp
@[simp] theorem Cpu.evalCond_statStk (k : Cond) : ((evalCond k c).2).statStk = c.statStk := by unfold evalCond; split <;> simp
@[simp] theorem Cpu.evalCond_loopStk (k : Cond) : ((evalCond k c).2).loopStk = c.loopStk := by unfold evalCond; split <;> simp

@[simp] theorem Cpu.advance_bank0 (a : Addr) : (c.advance a).bank0 = c.bank0 := by unfold Cpu.advance; split <;> [(dsimp only; split <;> simp); rfl]
@[simp] theorem Cpu.advance_bank1 (a : Addr) : (c.advance a).bank1 = c.bank1 := by unfold Cpu.advance; split <;> [(dsimp only; split <;> simp); rfl]
@[simp] theorem Cpu.advance_px (a : Addr) : (c.advance a).px = c.px := by unfold Cpu.advance; split <;> [(dsimp only; split <;> simp); rfl]
@[simp] theorem Cpu.advance_i (a : Addr) : (c.advance a).i = c.i := by unfold Cpu.advance; split <;> [(dsimp only; split <;> simp); rfl]
@[simp] theorem Cpu.advance_m (a : Addr) : (c.advance a).m = c.m := by unfold Cpu.advance; split <;> [(dsimp only; split <;> simp); rfl]
@[simp] theorem Cpu.advance_l (a : Addr) : (c.advance a).l = c.l := by unfold Cpu.advance; split <;> [(dsimp only; split <;> simp); rfl]
@[simp] theorem Cpu.advance_base (a : Addr) : (c.advance a).base = c.base := by unfold Cpu.advance; split <;> [(dsimp only; split <;> simp); rfl]
@[simp] theorem Cpu.advance_astat (a : Addr) : (c.advance a).astat = c.astat := by unfold Cpu.advance; split <;> [(dsimp only; split <;> simp); rfl]
@[simp] theorem Cpu.advance_mstat (a : Addr) : (c.advance a).mstat = c.mstat := by unfold Cpu.advance; split <;> [(dsimp only; split <;> simp); rfl]
@[simp] theorem Cpu.advance_imask (a : Addr) : (c.advance a).imask = c.imask := by unfold Cpu.advance; split <;> [(dsimp only; split <;> simp); rfl]
@[simp] theorem Cpu.advance_icntl (a : Addr) : (c.advance a).icntl = c.icntl := by unfold Cpu.advance; split <;> [(dsimp only; split <;> simp); rfl]
@[simp] theorem Cpu.advance_irqLine (a : Addr) : (c.advance a).irqLine = c.irqLine := by unfold Cpu.advance; split <;> [(dsimp only; split <;> simp); rfl]
@[simp] theorem Cpu.advance_irqLatch (a : Addr) : (c.advance a).irqLatch = c.irqLatch := by unfold Cpu.advance; split <;> [(dsimp only; split <;> simp); rfl]
@[simp] theorem Cpu.advance_statStk (a : Addr) : (c.advance a).statStk = c.statStk := by unfold Cpu.advance; split <;> [(dsimp only; split <;> simp); rfl]

end Updates

section StateUpdates
variable (s : State)

@[simp] theorem State.onCpu_dm (f : Cpu → Cpu) : (onCpu f s).dm = s.dm := rfl
@[simp] theorem State.onCpu_pm (f : Cpu → Cpu) : (onCpu f s).pm = s.pm := rfl
@[simp] theorem State.onCpu_bus (f : Cpu → Cpu) : (onCpu f s).bus = s.bus := rfl
@[simp] theorem State.onCpu_acks (f : Cpu → Cpu) : (onCpu f s).acks = s.acks := rfl
@[simp] theorem State.onCpu_irqCallback (f : Cpu → Cpu) : (onCpu f s).irqCallback = s.irqCallback := rfl
@[simp] theorem State.onCpu_evalReq (f : Cpu → Cpu) : (onCpu f s).evalReq = s.evalReq := rfl
@[simp] theorem State.onCpu_cpu (f : Cpu → Cpu) : (onCpu f s).cpu = f s.cpu := rfl

@[simp] theorem State.dmRead_cpu (a : Addr) : ((dmRead a s).2).cpu = s.cpu := rfl
@[simp] theorem State.dmRead_dm (a : Addr) : ((dmRead a s).2).dm = s.dm := rfl
@[simp] theorem State.dmRead_pm (a : Addr) : ((dmRead a s).2).pm = s.pm := rfl
@[simp] theorem State.dmRead_acks (a : Addr) : ((dmRead a s).2).acks = s.acks := rfl
@[simp] theorem State.dmRead_irqCallback (a : Addr) : ((dmRead a s).2).irqCallback = s.irqCallback := rfl
@[simp] theorem State.dmRead_evalReq (a : Addr) : ((dmRead a s).2).evalReq = s.evalReq := rfl

@[simp] theorem State.pmRead_cpu (a : Addr) : ((pmRead a s).2).cpu = s.cpu := rfl
@[simp] theorem State.pmRead_dm (a : Addr) : ((pmRead a s).2).dm = s.dm := rfl
@[simp] theorem State.pmRead_pm (a : Addr) : ((pmRead a s).2).pm = s.pm := rfl
@[simp] theorem State.pmRead_acks (a : Addr) : ((pmRead a s).2).acks = s.acks := rfl
@[simp] theorem State.pmRead_irqCallback (a : Addr) : ((pmRead a s).2).irqCallback = s.irqCallback := rfl
@[simp] theorem State.pmRead_evalReq (a : Addr) : ((pmRead a s).2).evalReq = s.evalReq := rfl

@[simp] theorem State.dmWrite_cpu (a : Addr) (v : Word) : (dmWrite a v s).cpu = s.cpu := rfl
@[simp] theorem State.dmWrite_pm (a : Addr) (v : Word) : (dmWrite a v s).pm = s.pm := rfl
@[simp] theorem State.dmWrite_acks (a : Addr) (v : Word) : (dmWrite a v s).acks = s.acks := rfl
@[simp] theorem State.dmWrite_irqCallback (a : Addr) (v : Word) : (dmWrite a v s).irqCallback = s.irqCallback := rfl
@[simp] theorem State.dmWrite_evalReq (a : Addr) (v : Word) : (dmWrite a v s).evalReq = s.evalReq := rfl

@[simp] theorem State.pmWrite_cpu (a : Addr) (v : PWord) : (pmWrite a v s).cpu = s.cpu := rfl
@[simp] theorem State.pmWrite_dm (a : Addr) (v : PWord) : (pmWrite a v s).dm = s.dm := rfl
@[simp] theorem State.pmWrite_acks (a : Addr) (v : PWord) : (pmWrite a v s).acks = s.acks := rfl
@[simp] theorem State.pmWrite_irqCallback (a : Addr) (v : PWord) : (pmWrite a v s).irqCallback = s.irqCallback := rfl
@[simp] theorem State.pmWrite_evalReq (a : Addr) (v : PWord) : (pmWrite a v s).evalReq = s.evalReq := rfl

@[simp] theorem State.dmReadDag_dm (k n : Fin 8) : ((dmReadDag k n s).2).dm = s.dm := rfl
@[simp] theorem State.dmReadDag_pm (k n : Fin 8) : ((dmReadDag k n s).2).pm = s.pm := rfl
@[simp] theorem State.dmReadDag_acks (k n : Fin 8) : ((dmReadDag k n s).2).acks = s.acks := rfl
@[simp] theorem State.dmReadDag_irqCallback (k n : Fin 8) : ((dmReadDag k n s).2).irqCallback = s.irqCallback := rfl
@[simp] theorem State.dmReadDag_evalReq (k n : Fin 8) : ((dmReadDag k n s).2).evalReq = s.evalReq := rfl

@[simp] theorem State.pmReadDag_dm (k n : Fin 8) : ((pmReadDag k n s).2).dm = s.dm := rfl
@[simp] theorem State.pmReadDag_pm (k n : Fin 8) : ((pmReadDag k n s).2).pm = s.pm := rfl
@[simp] theorem State.pmReadDag_acks (k n : Fin 8) : ((pmReadDag k n s).2).acks = s.acks := rfl
@[simp] theorem State.pmReadDag_irqCallback (k n : Fin 8) : ((pmReadDag k n s).2).irqCallback = s.irqCallback := rfl
@[simp] theorem State.pmReadDag_evalReq (k n : Fin 8) : ((pmReadDag k n s).2).evalReq = s.evalReq := rfl

@[simp] theorem State.dmWriteDag_pm (k n : Fin 8) (v : Word) : (dmWriteDag k n v s).pm = s.pm := rfl
@[simp] theorem State.dmWriteDag_acks (k n : Fin 8) (v : Word) : (dmWriteDag k n v s).acks = s.acks := rfl
@[simp] theorem State.dmWriteDag_irqCallback (k n : Fin 8) (v : Word) : (dmWriteDag k n v s).irqCallback = s.irqCallback := rfl
@[simp] theorem State.dmWriteDag_evalReq (k n : Fin 8) (v : Word) : (dmWriteDag k n v s).evalReq = s.evalReq := rfl

@[simp] theorem State.pmWriteDag_dm (k n : Fin 8) (v : Word) : (pmWriteDag k n v s).dm = s.dm := rfl
@[simp] theorem State.pmWriteDag_acks (k n : Fin 8) (v : Word) : (pmWriteDag k n v s).acks = s.acks := rfl
@[simp] theorem State.pmWriteDag_irqCallback (k n : Fin 8) (v : Word) : (pmWriteDag k n v s).irqCallback = s.irqCallback := rfl
@[simp] theorem State.pmWriteDag_evalReq (k n : Fin 8) (v : Word) : (pmWriteDag k n v s).evalReq = s.evalReq := rfl

@[simp] theorem State.statPop_dm : (Machine.statPop s).dm = s.dm := rfl
@[simp] theorem State.statPop_pm : (Machine.statPop s).pm = s.pm := rfl
@[simp] theorem State.statPop_bus : (Machine.statPop s).bus = s.bus := rfl
@[simp] theorem State.statPop_acks : (Machine.statPop s).acks = s.acks := rfl
@[simp] theorem State.statPop_irqCallback : (Machine.statPop s).irqCallback = s.irqCallback := rfl

@[simp] theorem State.returnFromInterrupt_dm : (returnFromInterrupt s).dm = s.dm := by simp [returnFromInterrupt]
@[simp] theorem State.returnFromInterrupt_pm : (returnFromInterrupt s).pm = s.pm := by simp [returnFromInterrupt]
@[simp] theorem State.returnFromInterrupt_bus : (returnFromInterrupt s).bus = s.bus := by simp [returnFromInterrupt]
@[simp] theorem State.returnFromInterrupt_acks : (returnFromInterrupt s).acks = s.acks := by simp [returnFromInterrupt]
@[simp] theorem State.returnFromInterrupt_irqCallback : (returnFromInterrupt s).irqCallback = s.irqCallback := by simp [returnFromInterrupt]

@[simp] theorem State.regWrite_dm (r : Slot) (v : Word) : (regWrite r v s).dm = s.dm := by unfold regWrite; split <;> rfl
@[simp] theorem State.regWrite_pm (r : Slot) (v : Word) : (regWrite r v s).pm = s.pm := by unfold regWrite; split <;> rfl
@[simp] theorem State.regWrite_bus (r : Slot) (v : Word) : (regWrite r v s).bus = s.bus := by unfold regWrite; split <;> rfl
@[simp] theorem State.regWrite_acks (r : Slot) (v : Word) : (regWrite r v s).acks = s.acks := by unfold regWrite; split <;> rfl
@[simp] theorem State.regWrite_irqCallback (r : Slot) (v : Word) : (regWrite r v s).irqCallback = s.irqCallback := by unfold regWrite; split <;> rfl

@[simp] theorem State.takeInterrupt_dm (n : Fin Config.numIrq) : (takeInterrupt n s).dm = s.dm := by simp [takeInterrupt]
@[simp] theorem State.takeInterrupt_pm (n : Fin Config.numIrq) : (takeInterrupt n s).pm = s.pm := by simp [takeInterrupt]
@[simp] theorem State.takeInterrupt_bus (n : Fin Config.numIrq) : (takeInterrupt n s).bus = s.bus := by simp [takeInterrupt]
@[simp] theorem State.takeInterrupt_evalReq (n : Fin Config.numIrq) : (takeInterrupt n s).evalReq = s.evalReq := by simp [takeInterrupt]
@[simp] theorem State.takeInterrupt_irqCallback (n : Fin Config.numIrq) : (takeInterrupt n s).irqCallback = s.irqCallback := by simp [takeInterrupt]

@[simp] theorem State.evaluateInterrupts_dm : (evaluateInterrupts s).dm = s.dm := by unfold evaluateInterrupts; split <;> simp
@[simp] theorem State.evaluateInterrupts_pm : (evaluateInterrupts s).pm = s.pm := by unfold evaluateInterrupts; split <;> simp
@[simp] theorem State.evaluateInterrupts_bus : (evaluateInterrupts s).bus = s.bus := by unfold evaluateInterrupts; split <;> simp
@[simp] theorem State.evaluateInterrupts_evalReq : (evaluateInterrupts s).evalReq = s.evalReq := by unfold evaluateInterrupts; split <;> simp
@[simp] theorem State.evaluateInterrupts_irqCallback : (evaluateInterrupts s).irqCallback = s.irqCallback := by unfold evaluateInterrupts; split <;> simp

@[simp] theorem State.retire_dm : (retire s).dm = s.dm := by unfold retire; split <;> simp
@[simp] theorem State.retire_pm : (retire s).pm = s.pm := by unfold retire; split <;> simp
@[simp] theorem State.retire_bus : (retire s).bus = s.bus := by unfold retire; split <;> simp
@[simp] theorem State.retire_irqCallback : (retire s).irqCallback = s.irqCallback := by unfold retire; split <;> simp

@[simp] theorem State.fetchWord_cpu : ((fetchWord s).2).cpu = s.cpu := rfl
@[simp] theorem State.fetchWord_dm : ((fetchWord s).2).dm = s.dm := rfl
@[simp] theorem State.fetchWord_pm : ((fetchWord s).2).pm = s.pm := rfl
@[simp] theorem State.fetchWord_irqCallback : ((fetchWord s).2).irqCallback = s.irqCallback := rfl
@[simp] theorem State.fetchWord_acks : (fetchWord s).2.acks = [] := rfl
@[simp] theorem State.fetchWord_evalReq : (fetchWord s).2.evalReq = false := rfl

@[simp] theorem State.enterInstr_dm : (enterInstr s).dm = s.dm := rfl
@[simp] theorem State.enterInstr_pm : (enterInstr s).pm = s.pm := rfl
@[simp] theorem State.enterInstr_irqCallback : (enterInstr s).irqCallback = s.irqCallback := rfl
@[simp] theorem State.enterInstr_cpu : (enterInstr s).cpu = s.cpu.advance s.cpu.pc := rfl
@[simp] theorem State.enterInstr_bus : (enterInstr s).bus = [.fetch s.cpu.pc] := rfl
@[simp] theorem State.enterInstr_acks : (enterInstr s).acks = [] := rfl
@[simp] theorem State.enterInstr_evalReq : (enterInstr s).evalReq = false := rfl

@[simp] theorem State.beginHostCall_cpu : (beginHostCall s).cpu = s.cpu := rfl
@[simp] theorem State.beginHostCall_dm : (beginHostCall s).dm = s.dm := rfl
@[simp] theorem State.beginHostCall_pm : (beginHostCall s).pm = s.pm := rfl
@[simp] theorem State.beginHostCall_irqCallback : (beginHostCall s).irqCallback = s.irqCallback := rfl
@[simp] theorem State.beginHostCall_bus : (beginHostCall s).bus = [] := rfl
@[simp] theorem State.beginHostCall_acks : (beginHostCall s).acks = [] := rfl
@[simp] theorem State.beginHostCall_evalReq : (beginHostCall s).evalReq = false := rfl

@[simp] theorem State.setIrqVectorCallback_cpu (b : Bool) : (setIrqVectorCallback b s).cpu = s.cpu := rfl
@[simp] theorem State.setIrqVectorCallback_dm (b : Bool) : (setIrqVectorCallback b s).dm = s.dm := rfl
@[simp] theorem State.setIrqVectorCallback_pm (b : Bool) : (setIrqVectorCallback b s).pm = s.pm := rfl
@[simp] theorem State.setIrqVectorCallback_irqCallback (b : Bool) : (setIrqVectorCallback b s).irqCallback = b := rfl
@[simp] theorem State.setIrqVectorCallback_bus (b : Bool) : (setIrqVectorCallback b s).bus = [] := rfl
@[simp] theorem State.setIrqVectorCallback_acks (b : Bool) : (setIrqVectorCallback b s).acks = [] := rfl
@[simp] theorem State.setIrqVectorCallback_evalReq (b : Bool) : (setIrqVectorCallback b s).evalReq = false := rfl

end StateUpdates

end Sys2Proof.Machine
end

