-- ==== Sys2Proof/Laws/Operands.lean ====
section
/-!
SUPPORT. The live bank and the other one after each operation (10_state.md R22), and the flags after a flag is written.
-/
namespace Sys2Proof.Machine

section Banks
variable (c : Cpu)

@[simp] theorem Cpu.setLive_live (b : Bank) : (c.setLive b).live = b := by unfold Cpu.setLive Cpu.live; split <;> simp [*]
@[simp] theorem Cpu.setLive_shadow (b : Bank) : (c.setLive b).shadow = c.shadow := by
  unfold Cpu.setLive Cpu.shadow; split <;> simp [*]
@[simp] theorem Cpu.withLive_live (f : Bank → Bank) : (c.withLive f).live = f c.live := by simp [Cpu.withLive]
@[simp] theorem Cpu.withLive_shadow (f : Bank → Bank) : (c.withLive f).shadow = c.shadow := by simp [Cpu.withLive]

@[simp] theorem Cpu.setFlag_live (k : Nat) (b : Bool) : (c.setFlag k b).live = c.live := by simp [Cpu.live]
@[simp] theorem Cpu.setFlag_shadow (k : Nat) (b : Bool) : (c.setFlag k b).shadow = c.shadow := by simp [Cpu.shadow]
@[simp] theorem Cpu.rebase_live (k : Fin 8) : (c.rebase k).live = c.live := by simp [Cpu.live]
@[simp] theorem Cpu.rebase_shadow (k : Fin 8) : (c.rebase k).shadow = c.shadow := by simp [Cpu.shadow]
@[simp] theorem Cpu.dagUpdate_live (k n : Fin 8) : (c.dagUpdate k n).live = c.live := by simp [Cpu.live]
@[simp] theorem Cpu.dagUpdate_shadow (k n : Fin 8) : (c.dagUpdate k n).shadow = c.shadow := by simp [Cpu.shadow]
@[simp] theorem Cpu.pcPush_live (v : Addr) : (c.pcPush v).live = c.live := by simp [Cpu.live]
@[simp] theorem Cpu.pcPush_shadow (v : Addr) : (c.pcPush v).shadow = c.shadow := by simp [Cpu.shadow]
@[simp] theorem Cpu.pcPop_live : (c.pcPop).live = c.live := by simp [Cpu.live]
@[simp] theorem Cpu.pcPop_shadow : (c.pcPop).shadow = c.shadow := by simp [Cpu.shadow]
@[simp] theorem Cpu.cntrPush_live : (c.cntrPush).live = c.live := by simp [Cpu.live]
@[simp] theorem Cpu.cntrPush_shadow : (c.cntrPush).shadow = c.shadow := by simp [Cpu.shadow]
@[simp] theorem Cpu.cntrPop_live : (c.cntrPop).live = c.live := by simp [Cpu.live]
@[simp] theorem Cpu.cntrPop_shadow : (c.cntrPop).shadow = c.shadow := by simp [Cpu.shadow]
@[simp] theorem Cpu.statPush_live : (c.statPush).live = c.live := by simp [Cpu.live]
@[simp] theorem Cpu.statPush_shadow : (c.statPush).shadow = c.shadow := by simp [Cpu.shadow]
@[simp] theorem Cpu.loopPush_live (e : LoopEntry) : (c.loopPush e).live = c.live := by simp [Cpu.live]
@[simp] theorem Cpu.loopPush_shadow (e : LoopEntry) : (c.loopPush e).shadow = c.shadow := by simp [Cpu.shadow]
@[simp] theorem Cpu.loopPop_live : (c.loopPop).live = c.live := by simp [Cpu.live]
@[simp] theorem Cpu.loopPop_shadow : (c.loopPop).shadow = c.shadow := by simp [Cpu.shadow]
@[simp] theorem Cpu.jumpTo_live (a : Addr) : (c.jumpTo a).live = c.live := by simp [Cpu.live]
@[simp] theorem Cpu.jumpTo_shadow (a : Addr) : (c.jumpTo a).shadow = c.shadow := by simp [Cpu.shadow]
@[simp] theorem Cpu.callTo_live (a : Addr) : (c.callTo a).live = c.live := by simp [Cpu.live]
@[simp] theorem Cpu.callTo_shadow (a : Addr) : (c.callTo a).shadow = c.shadow := by simp [Cpu.shadow]
@[simp] theorem Cpu.pcReturn_live : (c.pcReturn).live = c.live := by simp [Cpu.live]
@[simp] theorem Cpu.pcReturn_shadow : (c.pcReturn).shadow = c.shadow := by simp [Cpu.shadow]
@[simp] theorem Cpu.setAluFlags_live (o : AluOut) : (c.setAluFlags o).live = c.live := by simp [Cpu.live]
@[simp] theorem Cpu.setAluFlags_shadow (o : AluOut) : (c.setAluFlags o).shadow = c.shadow := by simp [Cpu.shadow]
@[simp] theorem Cpu.setAbsSign_live (fn : AluFn) (x : Word) : (c.setAbsSign fn x).live = c.live := by simp [Cpu.live]
@[simp] theorem Cpu.setAbsSign_shadow (fn : AluFn) (x : Word) : (c.setAbsSign fn x).shadow = c.shadow := by simp [Cpu.shadow]
@[simp] theorem Cpu.aluWrite_shadow (z : Dest) (o : AluOut) : (c.aluWrite z o).shadow = c.shadow := by cases z <;> simp [Cpu.aluWrite]
@[simp] theorem Cpu.aluPart_shadow (z : Dest) (fn : AluFn) (y : BitVec 2) (x : BitVec 3) : (aluPart z fn y x c).shadow = c.shadow := by simp [aluPart]
@[simp] theorem Cpu.macWrite_shadow (z : Dest) (q : BitVec 40) : (c.macWrite z q).shadow = c.shadow := by cases z <;> simp [Cpu.macWrite]
@[simp] theorem Cpu.macPart_shadow (z : Dest) (fn : MacFn) (y : BitVec 2) (x : BitVec 3) : (macPart z fn y x c).shadow = c.shadow := by unfold macPart; split <;> simp
@[simp] theorem Cpu.srWrite_shadow (g : Bool) (v : BitVec 32) : (c.srWrite g v).shadow = c.shadow := by simp [Cpu.srWrite]
@[simp] theorem Cpu.setSe_shadow (e : Int) : (c.setSe e).shadow = c.shadow := by simp [Cpu.setSe]
@[simp] theorem Cpu.expHi_shadow (x : Word) : (expHi x c).shadow = c.shadow := by simp [expHi]
@[simp] theorem Cpu.expHix_shadow (x : Word) : (expHix x c).shadow = c.shadow := by unfold expHix; split <;> simp
@[simp] theorem Cpu.expLo_shadow (x : Word) : (expLo x c).shadow = c.shadow := by unfold expLo; split <;> simp
@[simp] theorem Cpu.expAdj_shadow (x : Word) : (expAdj x c).shadow = c.shadow := by unfold expAdj; split <;> simp
@[simp] theorem Cpu.shiftPart_shadow (f : ShFn) (x : BitVec 3) (n : Int) : (shiftPart f x n c).shadow = c.shadow := by cases f <;> simp [shiftPart]
@[simp] theorem Cpu.shiftBySe_shadow (f : ShFn) (x : BitVec 3) : (shiftBySe f x c).shadow = c.shadow := by simp [shiftBySe]
@[simp] theorem Cpu.divideSign_shadow (y : BitVec 2) (x : BitVec 3) : (divideSign y x c).shadow = c.shadow := by simp [divideSign]
@[simp] theorem Cpu.divideStep_shadow (x : BitVec 3) : (divideStep x c).shadow = c.shadow := by simp [divideStep]
@[simp] theorem Cpu.saturateMr_shadow : (saturateMr c).shadow = c.shadow := by unfold saturateMr; split <;> simp
@[simp] theorem Cpu.computePart_shadow (z : Dest) (f : Amf) (y : BitVec 2) (x : BitVec 3) : (computePart z f y x c).shadow = c.shadow := by cases f <;> simp [computePart]
@[simp] theorem Cpu.driveLine_live (n : Fin Config.numIrq) (b : Bool) : (c.driveLine n b).live = c.live := by simp [Cpu.live]
@[simp] theorem Cpu.driveLine_shadow (n : Fin Config.numIrq) (b : Bool) : (c.driveLine n b).shadow = c.shadow := by simp [Cpu.shadow]
@[simp] theorem Cpu.counterCond_live : ((counterCond c).2).live = c.live := by simp [Cpu.live]
@[simp] theorem Cpu.counterCond_shadow : ((counterCond c).2).shadow = c.shadow := by simp [Cpu.shadow]
@[simp] theorem Cpu.evalCond_live (k : Cond) : ((evalCond k c).2).live = c.live := by simp [Cpu.live]
@[simp] theorem Cpu.evalCond_shadow (k : Cond) : ((evalCond k c).2).shadow = c.shadow := by simp [Cpu.shadow]
@[simp] theorem Cpu.advance_live (a : Addr) : (c.advance a).live = c.live := by simp [Cpu.live]
@[simp] theorem Cpu.advance_shadow (a : Addr) : (c.advance a).shadow = c.shadow := by simp [Cpu.shadow]

end Banks

/-- Two states with the same live and the same other bank, and the same bank select, hold the same banks. -/
theorem Cpu.banks_eq {c d : Cpu} (hm : d.mstat = c.mstat) (hl : d.live = c.live) (hs : d.shadow = c.shadow) :
    d.bank0 = c.bank0 ∧ d.bank1 = c.bank1 := by
  unfold Cpu.live Cpu.shadow at *
  rw [hm] at hl hs
  split at hl <;> simp_all

section Flags
variable (c : Cpu)

/-- A flag written reads as written, every other flag as before (10_state.md R27). -/
@[simp] theorem Cpu.flag_setFlag (i j : Nat) (b : Bool) :
    (c.setFlag i b).flag j = if i = j ∧ j < 8 then b else c.flag j := by
  simp [Cpu.flag, Cpu.setFlag]

@[simp] theorem Cpu.withLive_flag (f : Bank → Bank) (j : Nat) : (c.withLive f).flag j = c.flag j := by simp [Cpu.flag]
@[simp] theorem Cpu.setLive_flag (b : Bank) (j : Nat) : (c.setLive b).flag j = c.flag j := by simp [Cpu.flag]
@[simp] theorem Cpu.aluWrite_flag (z : Dest) (o : AluOut) (j : Nat) : (c.aluWrite z o).flag j = c.flag j := by simp [Cpu.flag]
@[simp] theorem Cpu.srWrite_flag (g : Bool) (v : BitVec 32) (j : Nat) : (c.srWrite g v).flag j = c.flag j := by
  simp [Cpu.flag]
@[simp] theorem Cpu.setSe_flag (e : Int) (j : Nat) : (c.setSe e).flag j = c.flag j := by simp [Cpu.flag]

/-- The flags after `SetAluFlags` (43_alu.md R171; 10_state.md R28). -/
theorem Cpu.setAluFlags_flags (o : AluOut) :
    (c.setAluFlags o).flag bitAZ = o.z ∧ (c.setAluFlags o).flag bitAN = o.n ∧ (c.setAluFlags o).flag bitAC = o.c ∧
      (c.setAluFlags o).flag bitAV = (if c.avLatch then c.flag bitAV || o.v else o.v) ∧
      ∀ j, 4 ≤ j → (c.setAluFlags o).flag j = c.flag j := by
  refine ⟨?_, ?_, ?_, ?_, ?_⟩
  · simp [Cpu.setAluFlags, bitAZ, bitAN, bitAV, bitAC]
  · simp [Cpu.setAluFlags, bitAZ, bitAN, bitAV, bitAC]
  · simp [Cpu.setAluFlags, bitAZ, bitAN, bitAV, bitAC]
  · simp [Cpu.setAluFlags, bitAZ, bitAN, bitAV, bitAC]
  · intro j hj
    simp only [Cpu.setAluFlags, Cpu.flag_setFlag, bitAZ, bitAN, bitAV, bitAC]
    simp [show ¬(3 = j ∧ j < 8) by omega, show ¬(1 = j ∧ j < 8) by omega, show ¬(0 = j ∧ j < 8) by omega,
      show ¬(2 = j ∧ j < 8) by omega]

end Flags

end Sys2Proof.Machine
end

