-- ==== Sys2Proof/Laws/Ops.lean ====
section
/-!
SUPPORT. One lemma per shared operation that says once what it can do: the hardware stacks, register writes, conditions,
address generation and interrupts.
-/
namespace Sys2Proof.Machine

/-! ### One stack -/

section Stack
variable {α : Type} {n : Nat} (st : HwStack α n) (v : α)

/-- A push below capacity writes the slot at the pointer and raises the pointer; at capacity it is dropped
(10_state.md R42, R44). -/
theorem HwStack.push_cases :
    (∃ h : st.sp.val < n, st.push v =
      some { slots := st.slots.set st.sp.val v h, sp := ⟨st.sp.val + 1, Nat.succ_lt_succ h⟩ }) ∨
    (st.sp.val = n ∧ st.push v = none) := by
  unfold HwStack.push
  by_cases h : st.sp.val < n
  · exact .inl ⟨h, by simp [h]⟩
  · have := st.sp.isLt
    exact .inr ⟨by omega, by simp [h]⟩

@[simp] theorem HwStack.pop_slots : st.pop.slots = st.slots := rfl
@[simp] theorem HwStack.pop_sp : st.pop.sp.val = st.sp.val - 1 := rfl

/-- The stack is empty when its pointer is 0 (10_state.md R40). -/
@[simp] theorem HwStack.isEmpty_iff : st.isEmpty = true ↔ st.sp.val = 0 := by simp [HwStack.isEmpty]

/-- The EMPTY bit after a push is the emptiness of the stack after it (10_state.md R42, R48). -/
theorem sstatPush_empty (e : Nat) (he : e < 8) (s : BitVec 8) (h : s.getLsbD e = st.isEmpty) :
    (sstatPush e (st.push v).isSome s).getLsbD e = ((st.push v).getD st).isEmpty := by
  rcases st.push_cases v with ⟨hlt, hp⟩ | ⟨heq, hp⟩
  · simp [hp, sstatPush, HwStack.isEmpty, he]
  · simp [hp, sstatPush, h]

/-- The EMPTY bit after a pop is the emptiness of the stack after it (10_state.md R43, R48). -/
theorem sstatPop_empty (e : Nat) (he : e < 8) (s : BitVec 8) (h : s.getLsbD e = st.isEmpty) :
    (sstatPop e st.sp s).getLsbD e = st.pop.isEmpty := by
  unfold sstatPop
  by_cases h1 : st.sp.val = 1
  · simp [h1, he, HwStack.isEmpty]
  · have : ((st.sp.val == 1) = true) ↔ False := by simp [h1]
    simp only [this, if_false, h, HwStack.isEmpty, HwStack.pop_sp]
    by_cases h0 : st.sp.val = 0
    · simp [h0]
    · have h2 : st.sp.val - 1 ≠ 0 := by omega
      simp [h0, h2]

end Stack

/-- A push touches the two bits of its own stack only. -/
theorem sstatPush_other (e j : Nat) (d : Bool) (s : BitVec 8) (h0 : e ≠ j) (h1 : e + 1 ≠ j) :
    (sstatPush e d s).getLsbD j = s.getLsbD j := by
  unfold sstatPush; split <;> simp [h0, h1]

/-- A pop touches the EMPTY bit of its own stack only. -/
theorem sstatPop_other (e j sp : Nat) (s : BitVec 8) (h0 : e ≠ j) : (sstatPop e sp s).getLsbD j = s.getLsbD j := by
  unfold sstatPop; split <;> simp [h0]

/-! ### The four stacks of the Machine State -/

section Stacks
variable (c : Cpu)

/-- `PcPush(v)` (10_state.md R44). -/
theorem Cpu.pcPush_cases (v : Addr) :
    (∃ h : c.pcStk.sp.val < 16, c.pcPush v =
      { c with pcStk := { slots := c.pcStk.slots.set c.pcStk.sp.val v h, sp := ⟨c.pcStk.sp.val + 1, Nat.succ_lt_succ h⟩ },
               sstat := setBit c.sstat 0 false }) ∨
    (c.pcStk.sp.val = 16 ∧ c.pcPush v = { c with sstat := setBit c.sstat 1 true }) := by
  rcases c.pcStk.push_cases v with ⟨h, hp⟩ | ⟨h, hp⟩
  · exact .inl ⟨h, by simp [Cpu.pcPush, hp, sstatPush]⟩
  · exact .inr ⟨h, by simp [Cpu.pcPush, hp, sstatPush]⟩

/-- `CntrPush()` (10_state.md R45). -/
theorem Cpu.cntrPush_cases :
    (∃ h : c.cntrStk.sp.val < 4, c.cntrPush =
      { c with cntrStk := { slots := c.cntrStk.slots.set c.cntrStk.sp.val c.cntr h,
                            sp := ⟨c.cntrStk.sp.val + 1, Nat.succ_lt_succ h⟩ },
               sstat := setBit c.sstat 2 false }) ∨
    (c.cntrStk.sp.val = 4 ∧ c.cntrPush = { c with sstat := setBit c.sstat 3 true }) := by
  rcases c.cntrStk.push_cases c.cntr with ⟨h, hp⟩ | ⟨h, hp⟩
  · exact .inl ⟨h, by simp [Cpu.cntrPush, hp, sstatPush]⟩
  · exact .inr ⟨h, by simp [Cpu.cntrPush, hp, sstatPush]⟩

/-- `StatPush()` (10_state.md R46). -/
theorem Cpu.statPush_cases :
    (∃ h : c.statStk.sp.val < 4, c.statPush =
      { c with statStk := { slots := c.statStk.slots.set c.statStk.sp.val ⟨c.mstat, c.imask, c.astat⟩ h,
                            sp := ⟨c.statStk.sp.val + 1, Nat.succ_lt_succ h⟩ },
               sstat := setBit c.sstat 4 false }) ∨
    (c.statStk.sp.val = 4 ∧ c.statPush = { c with sstat := setBit c.sstat 5 true }) := by
  rcases c.statStk.push_cases ⟨c.mstat, c.imask, c.astat⟩ with ⟨h, hp⟩ | ⟨h, hp⟩
  · exact .inl ⟨h, by simp [Cpu.statPush, hp, sstatPush]⟩
  · exact .inr ⟨h, by simp [Cpu.statPush, hp, sstatPush]⟩

/-- `LoopPush(e)` (10_state.md R47). -/
theorem Cpu.loopPush_cases (e : LoopEntry) :
    (∃ h : c.loopStk.sp.val < 4, c.loopPush e =
      { c with loopStk := { slots := c.loopStk.slots.set c.loopStk.sp.val e h,
                            sp := ⟨c.loopStk.sp.val + 1, Nat.succ_lt_succ h⟩ },
               sstat := setBit c.sstat 6 false }) ∨
    (c.loopStk.sp.val = 4 ∧ c.loopPush e = { c with sstat := setBit c.sstat 7 true }) := by
  rcases c.loopStk.push_cases e with ⟨h, hp⟩ | ⟨h, hp⟩
  · exact .inl ⟨h, by simp [Cpu.loopPush, hp, sstatPush]⟩
  · exact .inr ⟨h, by simp [Cpu.loopPush, hp, sstatPush]⟩

/-- The four EMPTY bits agree with the four pointers (10_state.md R48). -/
theorem Cpu.emptyBitsAgree_iff : c.emptyBitsAgree = true ↔
    c.sstat.getLsbD 0 = c.pcStk.isEmpty ∧ c.sstat.getLsbD 2 = c.cntrStk.isEmpty ∧
      c.sstat.getLsbD 4 = c.statStk.isEmpty ∧ c.sstat.getLsbD 6 = c.loopStk.isEmpty := by
  simp only [Cpu.emptyBitsAgree, Bool.and_eq_true, beq_iff_eq, and_assoc]

variable {c}

theorem Cpu.emptyBitsAgree_pcPush (v : Addr) (h : c.emptyBitsAgree = true) :
    (c.pcPush v).emptyBitsAgree = true := by
  rw [Cpu.emptyBitsAgree_iff] at *
  exact ⟨sstatPush_empty c.pcStk v 0 (by omega) _ h.1,
    (sstatPush_other 0 2 _ _ (by decide) (by decide)).trans h.2.1,
    (sstatPush_other 0 4 _ _ (by decide) (by decide)).trans h.2.2.1,
    (sstatPush_other 0 6 _ _ (by decide) (by decide)).trans h.2.2.2⟩

theorem Cpu.emptyBitsAgree_pcPop (h : c.emptyBitsAgree = true) :
    c.pcPop.emptyBitsAgree = true := by
  rw [Cpu.emptyBitsAgree_iff] at *
  exact ⟨sstatPop_empty c.pcStk 0 (by omega) _ h.1,
    (sstatPop_other 0 2 _ _ (by decide)).trans h.2.1,
    (sstatPop_other 0 4 _ _ (by decide)).trans h.2.2.1,
    (sstatPop_other 0 6 _ _ (by decide)).trans h.2.2.2⟩

theorem Cpu.emptyBitsAgree_cntrPush (h : c.emptyBitsAgree = true) :
    c.cntrPush.emptyBitsAgree = true := by
  rw [Cpu.emptyBitsAgree_iff] at *
  exact ⟨(sstatPush_other 2 0 _ _ (by decide) (by decide)).trans h.1,
    sstatPush_empty c.cntrStk _ 2 (by omega) _ h.2.1,
    (sstatPush_other 2 4 _ _ (by decide) (by decide)).trans h.2.2.1,
    (sstatPush_other 2 6 _ _ (by decide) (by decide)).trans h.2.2.2⟩

theorem Cpu.emptyBitsAgree_cntrPop (h : c.emptyBitsAgree = true) :
    c.cntrPop.emptyBitsAgree = true := by
  rw [Cpu.emptyBitsAgree_iff] at *
  exact ⟨(sstatPop_other 2 0 _ _ (by decide)).trans h.1,
    sstatPop_empty c.cntrStk 2 (by omega) _ h.2.1,
    (sstatPop_other 2 4 _ _ (by decide)).trans h.2.2.1,
    (sstatPop_other 2 6 _ _ (by decide)).trans h.2.2.2⟩

theorem Cpu.emptyBitsAgree_statPush (h : c.emptyBitsAgree = true) :
    c.statPush.emptyBitsAgree = true := by
  rw [Cpu.emptyBitsAgree_iff] at *
  exact ⟨(sstatPush_other 4 0 _ _ (by decide) (by decide)).trans h.1,
    (sstatPush_other 4 2 _ _ (by decide) (by decide)).trans h.2.1,
    sstatPush_empty c.statStk _ 4 (by omega) _ h.2.2.1,
    (sstatPush_other 4 6 _ _ (by decide) (by decide)).trans h.2.2.2⟩

theorem Cpu.emptyBitsAgree_statPop (h : c.emptyBitsAgree = true) :
    c.statPop.emptyBitsAgree = true := by
  rw [Cpu.emptyBitsAgree_iff] at *
  exact ⟨(sstatPop_other 4 0 _ _ (by decide)).trans h.1,
    (sstatPop_other 4 2 _ _ (by decide)).trans h.2.1,
    sstatPop_empty c.statStk 4 (by omega) _ h.2.2.1,
    (sstatPop_other 4 6 _ _ (by decide)).trans h.2.2.2⟩

theorem Cpu.emptyBitsAgree_loopPush (e : LoopEntry) (h : c.emptyBitsAgree = true) :
    (c.loopPush e).emptyBitsAgree = true := by
  rw [Cpu.emptyBitsAgree_iff] at *
  exact ⟨(sstatPush_other 6 0 _ _ (by decide) (by decide)).trans h.1,
    (sstatPush_other 6 2 _ _ (by decide) (by decide)).trans h.2.1,
    (sstatPush_other 6 4 _ _ (by decide) (by decide)).trans h.2.2.1,
    sstatPush_empty c.loopStk e 6 (by omega) _ h.2.2.2⟩

theorem Cpu.emptyBitsAgree_loopPop (h : c.emptyBitsAgree = true) :
    c.loopPop.emptyBitsAgree = true := by
  rw [Cpu.emptyBitsAgree_iff] at *
  exact ⟨(sstatPop_other 6 0 _ _ (by decide)).trans h.1,
    (sstatPop_other 6 2 _ _ (by decide)).trans h.2.1,
    (sstatPop_other 6 4 _ _ (by decide)).trans h.2.2.1,
    sstatPop_empty c.loopStk 6 (by omega) _ h.2.2.2⟩

/-- A change that leaves SSTAT and the stacks alone keeps the agreement. -/
theorem Cpu.emptyBitsAgree_of_eq {d : Cpu} (h : c.emptyBitsAgree = true) (hs : d.sstat = c.sstat)
    (h1 : d.pcStk = c.pcStk) (h2 : d.cntrStk = c.cntrStk) (h3 : d.statStk = c.statStk) (h4 : d.loopStk = c.loopStk) :
    d.emptyBitsAgree = true := by
  rw [Cpu.emptyBitsAgree_iff] at *
  simpa [hs, h1, h2, h3, h4] using h

end Stacks

/-! ### Conditions -/

/-- Codes 0 to 13 and 15 have no side effect (47_program_flow.md R281). -/
theorem evalCond_flag (cond : Cond) (c : Cpu) (h : cond ≠ .notCe) : evalCond cond c = (flagCond cond c.astat, c) := by
  cases cond <;> first | rfl | exact absurd rfl h

/-- Code 14 (47_program_flow.md R282). -/
theorem evalCond_counter (c : Cpu) : evalCond .notCe c =
    if c.cntr - 1 = 0 then (false, { c with cntr := c.cntr - 1 }.cntrPop) else (true, { c with cntr := c.cntr - 1 }) := by
  simp only [evalCond, counterCond]
  split <;> simp_all

theorem whenCond_true {cond : Cond} {s : State} (act : State → State) (h : (evalCond cond s.cpu).1 = true) :
    whenCond cond act s = act { s with cpu := (evalCond cond s.cpu).2 } := by simp [whenCond, h]

theorem whenCond_false {cond : Cond} {s : State} (act : State → State) (h : (evalCond cond s.cpu).1 = false) :
    whenCond cond act s = { s with cpu := (evalCond cond s.cpu).2 } := by simp [whenCond, h]

/-! ### Register writes -/

theorem regWrite_some {slot : Slot} {r : Reg} (h : regAt slot = some r) (v : Word) (s : State) :
    regWrite slot v s = { s with cpu := writeReg r v s.cpu, evalReq := s.evalReq || r.isInterruptControl } := by
  simp [regWrite, h]

theorem regWrite_none {slot : Slot} (h : regAt slot = none) (v : Word) (s : State) : regWrite slot v s = s := by
  simp [regWrite, h]

/-- Every DREG field names a register of group 0 (30_encoding.md R107). -/
theorem regAt_dregSlot (d : BitVec 4) : ∃ r, regAt (dregSlot d) = some r ∧ r ∈ group0 ∧ r.isInterruptControl = false := by
  revert d; decide

/-! ### Address generation -/

/-- The update of an index: what `DagUpdate` does (41_dag_memory.md R140). -/
theorem Cpu.dagUpdate_i (c : Cpu) (k m : Fin 8) :
    (c.dagUpdate k m).i = c.i.set k (dagNext c.i[k] c.base[k] c.l[k] c.m[m]) := rfl

/-! ### Interrupts -/

/-- An evaluation takes the highest takeable line, or does nothing (60_exceptions.md R315, R316). -/
theorem evaluateInterrupts_cases (s : State) :
    (∃ n, s.cpu.takeable n = true ∧ (∀ m, n < m → s.cpu.takeable m = false) ∧ evaluateInterrupts s = takeInterrupt n s) ∨
    ((∀ n, s.cpu.takeable n = false) ∧ evaluateInterrupts s = s) := by
  unfold evaluateInterrupts Cpu.nextInterrupt
  by_cases h3 : s.cpu.takeable 3 = true
  · exact .inl ⟨3, h3, fun m hm => absurd hm (by revert m; decide), by simp [h3]⟩
  by_cases h2 : s.cpu.takeable 2 = true
  · refine .inl ⟨2, h2, fun m hm => ?_, by simp [h3, h2]⟩
    have : m = 3 := by revert m; decide
    simpa [this] using h3
  by_cases h1 : s.cpu.takeable 1 = true
  · refine .inl ⟨1, h1, fun m hm => ?_, by simp [h3, h2, h1]⟩
    have : m = 2 ∨ m = 3 := by revert m; decide
    rcases this with rfl | rfl <;> simp_all
  by_cases h0 : s.cpu.takeable 0 = true
  · refine .inl ⟨0, h0, fun m hm => ?_, by simp [h3, h2, h1, h0]⟩
    have : m = 1 ∨ m = 2 ∨ m = 3 := by revert m; decide
    rcases this with rfl | rfl | rfl <;> simp_all
  · refine .inr ⟨fun n => ?_, by simp [h3, h2, h1, h0]⟩
    have : n = 0 ∨ n = 1 ∨ n = 2 ∨ n = 3 := by revert n; decide
    rcases this with rfl | rfl | rfl | rfl <;> simp_all

/-- The registered callback is called once, with the line's number (60_exceptions.md R321). -/
@[simp] theorem takeInterrupt_acks (n : Fin Config.numIrq) (s : State) :
    (takeInterrupt n s).acks = if s.irqCallback then s.acks ++ [n] else s.acks := rfl
@[simp] theorem takeInterrupt_pc (n : Fin Config.numIrq) (s : State) :
    (takeInterrupt n s).cpu.pc = BitVec.ofNat 14 n := rfl

/-- A step ends with an evaluation when the instruction asked for one, and with no request left over
(47_program_flow.md R280). -/
theorem retire_cases (s : State) :
    (s.evalReq = false ∧ retire s = s) ∨ (s.evalReq = true ∧ retire s = evaluateInterrupts { s with evalReq := false }) := by
  unfold retire
  cases h : s.evalReq <;> simp

end Sys2Proof.Machine
end

