-- ==== Sys2Proof/Laws/PerInstr.lean ====
section
/-!
SUPPORT. The family `Encoded`: the word of every well-formed instruction carries the fixed bits of the instruction's row
of spec/opcode_table.json (30_encoding.md R102, R113).
-/
namespace Sys2Proof.Laws.Encoded

/-- The word of the instruction lies in the instruction's own row. -/
def Statement (i : Instr) : Prop := i.wellFormed = true → encode i &&& i.row.mask = i.row.bits

theorem nop : Statement (.nop) := fun _ => rfl

theorem reserved01 : Statement (.reserved01) := fun _ => rfl

theorem reserved02 : Statement (.reserved02) := fun _ => rfl

theorem reserved03 : Statement (.reserved03) := fun _ => rfl

theorem reserved08 : Statement (.reserved08) := fun _ => rfl

theorem stackControl (pp lp cp : Bool) (spp : BitVec 2) : Statement (.stackControl pp lp cp spp) := by
  intro _
  simp (disch := decide) [encode, Instr.row, or_and_mask, putAt_and_mask]

theorem satMr : Statement (.satMr) := fun _ => rfl

theorem divs (yop : BitVec 2) (xop : BitVec 3) : Statement (.divs yop xop) := by
  intro _
  simp (disch := decide) [encode, Instr.row, or_and_mask, putAt_and_mask]

theorem divq (xop : BitVec 3) : Statement (.divq xop) := by
  intro _
  simp (disch := decide) [encode, Instr.row, or_and_mask, putAt_and_mask]

theorem modify (g : Gen) (i m : BitVec 2) : Statement (.modify g i m) := by
  intro _
  simp (disch := decide) [encode, Instr.row, or_and_mask, putAt_and_mask, putIM]

theorem rts (cond : Cond) : Statement (.rts cond) := by
  intro _
  simp (disch := decide) [encode, Instr.row, or_and_mask, putAt_and_mask]

theorem rti (cond : Cond) : Statement (.rti cond) := by
  intro _
  simp (disch := decide) [encode, Instr.row, or_and_mask, putAt_and_mask]

theorem jumpInd (i : BitVec 2) (cond : Cond) : Statement (.jumpInd i cond) := by
  intro _
  simp (disch := decide) [encode, Instr.row, or_and_mask, putAt_and_mask]

theorem callInd (i : BitVec 2) (cond : Cond) : Statement (.callInd i cond) := by
  intro _
  simp (disch := decide) [encode, Instr.row, or_and_mask, putAt_and_mask]

theorem modeControl (ti mm sat ol br sr gm : BitVec 2) : Statement (.modeControl ti mm sat ol br sr gm) := by
  intro _
  simp (disch := decide) [encode, Instr.row, or_and_mask, putAt_and_mask]

theorem moveReg (dst src : Slot) : Statement (.moveReg dst src) := by
  intro _
  simp (disch := decide) [encode, Instr.row, or_and_mask, putAt_and_mask]

theorem lshiftHi (xop : BitVec 3) (cond : Cond) : Statement (.lshiftHi xop cond) := fun _ =>
  (encodeCondShift_and_mask _ _ _ 0xFF7800 (by decide)).trans (show _ = (0x0E0000 : PWord) by decide)

theorem orLshiftHi (xop : BitVec 3) (cond : Cond) : Statement (.orLshiftHi xop cond) := fun _ =>
  (encodeCondShift_and_mask _ _ _ 0xFF7800 (by decide)).trans (show _ = (0x0E0800 : PWord) by decide)

theorem lshiftLo (xop : BitVec 3) (cond : Cond) : Statement (.lshiftLo xop cond) := fun _ =>
  (encodeCondShift_and_mask _ _ _ 0xFF7800 (by decide)).trans (show _ = (0x0E1000 : PWord) by decide)

theorem orLshiftLo (xop : BitVec 3) (cond : Cond) : Statement (.orLshiftLo xop cond) := fun _ =>
  (encodeCondShift_and_mask _ _ _ 0xFF7800 (by decide)).trans (show _ = (0x0E1800 : PWord) by decide)

theorem ashiftHi (xop : BitVec 3) (cond : Cond) : Statement (.ashiftHi xop cond) := fun _ =>
  (encodeCondShift_and_mask _ _ _ 0xFF7800 (by decide)).trans (show _ = (0x0E2000 : PWord) by decide)

theorem orAshiftHi (xop : BitVec 3) (cond : Cond) : Statement (.orAshiftHi xop cond) := fun _ =>
  (encodeCondShift_and_mask _ _ _ 0xFF7800 (by decide)).trans (show _ = (0x0E2800 : PWord) by decide)

theorem ashiftLo (xop : BitVec 3) (cond : Cond) : Statement (.ashiftLo xop cond) := fun _ =>
  (encodeCondShift_and_mask _ _ _ 0xFF7800 (by decide)).trans (show _ = (0x0E3000 : PWord) by decide)

theorem orAshiftLo (xop : BitVec 3) (cond : Cond) : Statement (.orAshiftLo xop cond) := fun _ =>
  (encodeCondShift_and_mask _ _ _ 0xFF7800 (by decide)).trans (show _ = (0x0E3800 : PWord) by decide)

theorem normHi (xop : BitVec 3) (cond : Cond) : Statement (.normHi xop cond) := fun _ =>
  (encodeCondShift_and_mask _ _ _ 0xFF7800 (by decide)).trans (show _ = (0x0E4000 : PWord) by decide)

theorem orNormHi (xop : BitVec 3) (cond : Cond) : Statement (.orNormHi xop cond) := fun _ =>
  (encodeCondShift_and_mask _ _ _ 0xFF7800 (by decide)).trans (show _ = (0x0E4800 : PWord) by decide)

theorem normLo (xop : BitVec 3) (cond : Cond) : Statement (.normLo xop cond) := fun _ =>
  (encodeCondShift_and_mask _ _ _ 0xFF7800 (by decide)).trans (show _ = (0x0E5000 : PWord) by decide)

theorem orNormLo (xop : BitVec 3) (cond : Cond) : Statement (.orNormLo xop cond) := fun _ =>
  (encodeCondShift_and_mask _ _ _ 0xFF7800 (by decide)).trans (show _ = (0x0E5800 : PWord) by decide)

theorem expHi (xop : BitVec 3) (cond : Cond) : Statement (.expHi xop cond) := fun _ =>
  (encodeCondShift_and_mask _ _ _ 0xFF7800 (by decide)).trans (show _ = (0x0E6000 : PWord) by decide)

theorem expHix (xop : BitVec 3) (cond : Cond) : Statement (.expHix xop cond) := fun _ =>
  (encodeCondShift_and_mask _ _ _ 0xFF7800 (by decide)).trans (show _ = (0x0E6800 : PWord) by decide)

theorem expLo (xop : BitVec 3) (cond : Cond) : Statement (.expLo xop cond) := fun _ =>
  (encodeCondShift_and_mask _ _ _ 0xFF7800 (by decide)).trans (show _ = (0x0E7000 : PWord) by decide)

theorem expAdj (xop : BitVec 3) (cond : Cond) : Statement (.expAdj xop cond) := fun _ =>
  (encodeCondShift_and_mask _ _ _ 0xFF7800 (by decide)).trans (show _ = (0x0E7800 : PWord) by decide)

theorem lshiftHiImm (xop : BitVec 3) (n : BitVec 8) : Statement (.lshiftHiImm xop n) := fun _ =>
  (encodeImmShift_and_mask _ _ _ 0xFF7800 (by decide)).trans (show _ = (0x0F0000 : PWord) by decide)

theorem orLshiftHiImm (xop : BitVec 3) (n : BitVec 8) : Statement (.orLshiftHiImm xop n) := fun _ =>
  (encodeImmShift_and_mask _ _ _ 0xFF7800 (by decide)).trans (show _ = (0x0F0800 : PWord) by decide)

theorem lshiftLoImm (xop : BitVec 3) (n : BitVec 8) : Statement (.lshiftLoImm xop n) := fun _ =>
  (encodeImmShift_and_mask _ _ _ 0xFF7800 (by decide)).trans (show _ = (0x0F1000 : PWord) by decide)

theorem orLshiftLoImm (xop : BitVec 3) (n : BitVec 8) : Statement (.orLshiftLoImm xop n) := fun _ =>
  (encodeImmShift_and_mask _ _ _ 0xFF7800 (by decide)).trans (show _ = (0x0F1800 : PWord) by decide)

theorem ashiftHiImm (xop : BitVec 3) (n : BitVec 8) : Statement (.ashiftHiImm xop n) := fun _ =>
  (encodeImmShift_and_mask _ _ _ 0xFF7800 (by decide)).trans (show _ = (0x0F2000 : PWord) by decide)

theorem orAshiftHiImm (xop : BitVec 3) (n : BitVec 8) : Statement (.orAshiftHiImm xop n) := fun _ =>
  (encodeImmShift_and_mask _ _ _ 0xFF7800 (by decide)).trans (show _ = (0x0F2800 : PWord) by decide)

theorem ashiftLoImm (xop : BitVec 3) (n : BitVec 8) : Statement (.ashiftLoImm xop n) := fun _ =>
  (encodeImmShift_and_mask _ _ _ 0xFF7800 (by decide)).trans (show _ = (0x0F3000 : PWord) by decide)

theorem orAshiftLoImm (xop : BitVec 3) (n : BitVec 8) : Statement (.orAshiftLoImm xop n) := fun _ =>
  (encodeImmShift_and_mask _ _ _ 0xFF7800 (by decide)).trans (show _ = (0x0F3800 : PWord) by decide)

theorem shiftImmReserved : Statement (.shiftImmReserved) := fun _ => rfl

theorem shiftMove (sf : ShFn) (xop : BitVec 3) (ddreg sdreg : BitVec 4) : Statement (.shiftMove sf xop ddreg sdreg) := by
  intro _
  simp (disch := decide) [encode, Instr.row, or_and_mask, putAt_and_mask, putShift]

theorem shiftPmRead (sf : ShFn) (xop : BitVec 3) (dreg : BitVec 4) (i m : BitVec 2) : Statement (.shiftPmRead sf xop dreg i m) := by
  intro _
  simp (disch := decide) [encode, Instr.row, or_and_mask, putAt_and_mask, putIM, putShift]

theorem shiftPmWrite (sf : ShFn) (xop : BitVec 3) (dreg : BitVec 4) (i m : BitVec 2) : Statement (.shiftPmWrite sf xop dreg i m) := by
  intro _
  simp (disch := decide) [encode, Instr.row, or_and_mask, putAt_and_mask, putIM, putShift]

theorem shiftDmRead (g : Gen) (sf : ShFn) (xop : BitVec 3) (dreg : BitVec 4) (i m : BitVec 2) : Statement (.shiftDmRead g sf xop dreg i m) := by
  intro _
  simp (disch := decide) [encode, Instr.row, or_and_mask, putAt_and_mask, putIM, putShift]

theorem shiftDmWrite (g : Gen) (sf : ShFn) (xop : BitVec 3) (dreg : BitVec 4) (i m : BitVec 2) : Statement (.shiftDmWrite g sf xop dreg i m) := by
  intro _
  simp (disch := decide) [encode, Instr.row, or_and_mask, putAt_and_mask, putIM, putShift]

theorem doUntil (addr : Addr) (term : Cond) : Statement (.doUntil addr term) := by
  intro _
  simp (disch := decide) [encode, Instr.row, or_and_mask, putAt_and_mask]

theorem jump (addr : Addr) (cond : Cond) : Statement (.jump addr cond) := by
  intro _
  simp (disch := decide) [encode, Instr.row, or_and_mask, putAt_and_mask]

theorem call (addr : Addr) (cond : Cond) : Statement (.call addr cond) := by
  intro _
  simp (disch := decide) [encode, Instr.row, or_and_mask, putAt_and_mask]

theorem condNoCompute (z : Dest) (yop : BitVec 2) (xop : BitVec 3) (cond : Cond) : Statement (.condNoCompute z yop xop cond) := fun _ =>
  (encodeCondCompute_and_mask _ _ _ _ _ 0xFBE000 (by decide)).trans (show _ = (0x200000 : PWord) by cases z <;> decide)

theorem mrMulRnd (yop : BitVec 2) (xop : BitVec 3) (cond : Cond) : Statement (.mrMulRnd yop xop cond) := fun _ =>
  (encodeCondCompute_and_mask _ _ _ _ _ 0xFFE000 (by decide)).trans (show _ = (0x202000 : PWord) by decide)

theorem mfMulRnd (yop : BitVec 2) (xop : BitVec 3) (cond : Cond) : Statement (.mfMulRnd yop xop cond) := fun _ =>
  (encodeCondCompute_and_mask _ _ _ _ _ 0xFFE000 (by decide)).trans (show _ = (0x242000 : PWord) by decide)

theorem mrAddRnd (yop : BitVec 2) (xop : BitVec 3) (cond : Cond) : Statement (.mrAddRnd yop xop cond) := fun _ =>
  (encodeCondCompute_and_mask _ _ _ _ _ 0xFFE000 (by decide)).trans (show _ = (0x204000 : PWord) by decide)

theorem mfAddRnd (yop : BitVec 2) (xop : BitVec 3) (cond : Cond) : Statement (.mfAddRnd yop xop cond) := fun _ =>
  (encodeCondCompute_and_mask _ _ _ _ _ 0xFFE000 (by decide)).trans (show _ = (0x244000 : PWord) by decide)

theorem mrSubRnd (yop : BitVec 2) (xop : BitVec 3) (cond : Cond) : Statement (.mrSubRnd yop xop cond) := fun _ =>
  (encodeCondCompute_and_mask _ _ _ _ _ 0xFFE000 (by decide)).trans (show _ = (0x206000 : PWord) by decide)

theorem mfSubRnd (yop : BitVec 2) (xop : BitVec 3) (cond : Cond) : Statement (.mfSubRnd yop xop cond) := fun _ =>
  (encodeCondCompute_and_mask _ _ _ _ _ 0xFFE000 (by decide)).trans (show _ = (0x246000 : PWord) by decide)

theorem mrMulSS (yop : BitVec 2) (xop : BitVec 3) (cond : Cond) : Statement (.mrMulSS yop xop cond) := fun _ =>
  (encodeCondCompute_and_mask _ _ _ _ _ 0xFFE000 (by decide)).trans (show _ = (0x208000 : PWord) by decide)

theorem mfMulSS (yop : BitVec 2) (xop : BitVec 3) (cond : Cond) : Statement (.mfMulSS yop xop cond) := fun _ =>
  (encodeCondCompute_and_mask _ _ _ _ _ 0xFFE000 (by decide)).trans (show _ = (0x248000 : PWord) by decide)

theorem mrMulSU (yop : BitVec 2) (xop : BitVec 3) (cond : Cond) : Statement (.mrMulSU yop xop cond) := fun _ =>
  (encodeCondCompute_and_mask _ _ _ _ _ 0xFFE000 (by decide)).trans (show _ = (0x20A000 : PWord) by decide)

theorem mfMulSU (yop : BitVec 2) (xop : BitVec 3) (cond : Cond) : Statement (.mfMulSU yop xop cond) := fun _ =>
  (encodeCondCompute_and_mask _ _ _ _ _ 0xFFE000 (by decide)).trans (show _ = (0x24A000 : PWord) by decide)

theorem mrMulUS (yop : BitVec 2) (xop : BitVec 3) (cond : Cond) : Statement (.mrMulUS yop xop cond) := fun _ =>
  (encodeCondCompute_and_mask _ _ _ _ _ 0xFFE000 (by decide)).trans (show _ = (0x20C000 : PWord) by decide)

theorem mfMulUS (yop : BitVec 2) (xop : BitVec 3) (cond : Cond) : Statement (.mfMulUS yop xop cond) := fun _ =>
  (encodeCondCompute_and_mask _ _ _ _ _ 0xFFE000 (by decide)).trans (show _ = (0x24C000 : PWord) by decide)

theorem mrMulUU (yop : BitVec 2) (xop : BitVec 3) (cond : Cond) : Statement (.mrMulUU yop xop cond) := fun _ =>
  (encodeCondCompute_and_mask _ _ _ _ _ 0xFFE000 (by decide)).trans (show _ = (0x20E000 : PWord) by decide)

theorem mfMulUU (yop : BitVec 2) (xop : BitVec 3) (cond : Cond) : Statement (.mfMulUU yop xop cond) := fun _ =>
  (encodeCondCompute_and_mask _ _ _ _ _ 0xFFE000 (by decide)).trans (show _ = (0x24E000 : PWord) by decide)

theorem mrAddSS (yop : BitVec 2) (xop : BitVec 3) (cond : Cond) : Statement (.mrAddSS yop xop cond) := fun _ =>
  (encodeCondCompute_and_mask _ _ _ _ _ 0xFFE000 (by decide)).trans (show _ = (0x210000 : PWord) by decide)

theorem mfAddSS (yop : BitVec 2) (xop : BitVec 3) (cond : Cond) : Statement (.mfAddSS yop xop cond) := fun _ =>
  (encodeCondCompute_and_mask _ _ _ _ _ 0xFFE000 (by decide)).trans (show _ = (0x250000 : PWord) by decide)

theorem mrAddSU (yop : BitVec 2) (xop : BitVec 3) (cond : Cond) : Statement (.mrAddSU yop xop cond) := fun _ =>
  (encodeCondCompute_and_mask _ _ _ _ _ 0xFFE000 (by decide)).trans (show _ = (0x212000 : PWord) by decide)

theorem mfAddSU (yop : BitVec 2) (xop : BitVec 3) (cond : Cond) : Statement (.mfAddSU yop xop cond) := fun _ =>
  (encodeCondCompute_and_mask _ _ _ _ _ 0xFFE000 (by decide)).trans (show _ = (0x252000 : PWord) by decide)

theorem mrAddUS (yop : BitVec 2) (xop : BitVec 3) (cond : Cond) : Statement (.mrAddUS yop xop cond) := fun _ =>
  (encodeCondCompute_and_mask _ _ _ _ _ 0xFFE000 (by decide)).trans (show _ = (0x214000 : PWord) by decide)

theorem mfAddUS (yop : BitVec 2) (xop : BitVec 3) (cond : Cond) : Statement (.mfAddUS yop xop cond) := fun _ =>
  (encodeCondCompute_and_mask _ _ _ _ _ 0xFFE000 (by decide)).trans (show _ = (0x254000 : PWord) by decide)

theorem mrAddUU (yop : BitVec 2) (xop : BitVec 3) (cond : Cond) : Statement (.mrAddUU yop xop cond) := fun _ =>
  (encodeCondCompute_and_mask _ _ _ _ _ 0xFFE000 (by decide)).trans (show _ = (0x216000 : PWord) by decide)

theorem mfAddUU (yop : BitVec 2) (xop : BitVec 3) (cond : Cond) : Statement (.mfAddUU yop xop cond) := fun _ =>
  (encodeCondCompute_and_mask _ _ _ _ _ 0xFFE000 (by decide)).trans (show _ = (0x256000 : PWord) by decide)

theorem mrSubSS (yop : BitVec 2) (xop : BitVec 3) (cond : Cond) : Statement (.mrSubSS yop xop cond) := fun _ =>
  (encodeCondCompute_and_mask _ _ _ _ _ 0xFFE000 (by decide)).trans (show _ = (0x218000 : PWord) by decide)

theorem mfSubSS (yop : BitVec 2) (xop : BitVec 3) (cond : Cond) : Statement (.mfSubSS yop xop cond) := fun _ =>
  (encodeCondCompute_and_mask _ _ _ _ _ 0xFFE000 (by decide)).trans (show _ = (0x258000 : PWord) by decide)

theorem mrSubSU (yop : BitVec 2) (xop : BitVec 3) (cond : Cond) : Statement (.mrSubSU yop xop cond) := fun _ =>
  (encodeCondCompute_and_mask _ _ _ _ _ 0xFFE000 (by decide)).trans (show _ = (0x21A000 : PWord) by decide)

theorem mfSubSU (yop : BitVec 2) (xop : BitVec 3) (cond : Cond) : Statement (.mfSubSU yop xop cond) := fun _ =>
  (encodeCondCompute_and_mask _ _ _ _ _ 0xFFE000 (by decide)).trans (show _ = (0x25A000 : PWord) by decide)

theorem mrSubUS (yop : BitVec 2) (xop : BitVec 3) (cond : Cond) : Statement (.mrSubUS yop xop cond) := fun _ =>
  (encodeCondCompute_and_mask _ _ _ _ _ 0xFFE000 (by decide)).trans (show _ = (0x21C000 : PWord) by decide)

theorem mfSubUS (yop : BitVec 2) (xop : BitVec 3) (cond : Cond) : Statement (.mfSubUS yop xop cond) := fun _ =>
  (encodeCondCompute_and_mask _ _ _ _ _ 0xFFE000 (by decide)).trans (show _ = (0x25C000 : PWord) by decide)

theorem mrSubUU (yop : BitVec 2) (xop : BitVec 3) (cond : Cond) : Statement (.mrSubUU yop xop cond) := fun _ =>
  (encodeCondCompute_and_mask _ _ _ _ _ 0xFFE000 (by decide)).trans (show _ = (0x21E000 : PWord) by decide)

theorem mfSubUU (yop : BitVec 2) (xop : BitVec 3) (cond : Cond) : Statement (.mfSubUU yop xop cond) := fun _ =>
  (encodeCondCompute_and_mask _ _ _ _ _ 0xFFE000 (by decide)).trans (show _ = (0x25E000 : PWord) by decide)

theorem arPassY (yop : BitVec 2) (xop : BitVec 3) (cond : Cond) : Statement (.arPassY yop xop cond) := fun _ =>
  (encodeCondCompute_and_mask _ _ _ _ _ 0xFFE000 (by decide)).trans (show _ = (0x220000 : PWord) by decide)

theorem afPassY (yop : BitVec 2) (xop : BitVec 3) (cond : Cond) : Statement (.afPassY yop xop cond) := fun _ =>
  (encodeCondCompute_and_mask _ _ _ _ _ 0xFFE000 (by decide)).trans (show _ = (0x260000 : PWord) by decide)

theorem arIncY (yop : BitVec 2) (xop : BitVec 3) (cond : Cond) : Statement (.arIncY yop xop cond) := fun _ =>
  (encodeCondCompute_and_mask _ _ _ _ _ 0xFFE000 (by decide)).trans (show _ = (0x222000 : PWord) by decide)

theorem afIncY (yop : BitVec 2) (xop : BitVec 3) (cond : Cond) : Statement (.afIncY yop xop cond) := fun _ =>
  (encodeCondCompute_and_mask _ _ _ _ _ 0xFFE000 (by decide)).trans (show _ = (0x262000 : PWord) by decide)

theorem arAddC (yop : BitVec 2) (xop : BitVec 3) (cond : Cond) : Statement (.arAddC yop xop cond) := fun _ =>
  (encodeCondCompute_and_mask _ _ _ _ _ 0xFFE000 (by decide)).trans (show _ = (0x224000 : PWord) by decide)

theorem afAddC (yop : BitVec 2) (xop : BitVec 3) (cond : Cond) : Statement (.afAddC yop xop cond) := fun _ =>
  (encodeCondCompute_and_mask _ _ _ _ _ 0xFFE000 (by decide)).trans (show _ = (0x264000 : PWord) by decide)

theorem arAdd (yop : BitVec 2) (xop : BitVec 3) (cond : Cond) : Statement (.arAdd yop xop cond) := fun _ =>
  (encodeCondCompute_and_mask _ _ _ _ _ 0xFFE000 (by decide)).trans (show _ = (0x226000 : PWord) by decide)

theorem afAdd (yop : BitVec 2) (xop : BitVec 3) (cond : Cond) : Statement (.afAdd yop xop cond) := fun _ =>
  (encodeCondCompute_and_mask _ _ _ _ _ 0xFFE000 (by decide)).trans (show _ = (0x266000 : PWord) by decide)

theorem arNotY (yop : BitVec 2) (xop : BitVec 3) (cond : Cond) : Statement (.arNotY yop xop cond) := fun _ =>
  (encodeCondCompute_and_mask _ _ _ _ _ 0xFFE000 (by decide)).trans (show _ = (0x228000 : PWord) by decide)

theorem afNotY (yop : BitVec 2) (xop : BitVec 3) (cond : Cond) : Statement (.afNotY yop xop cond) := fun _ =>
  (encodeCondCompute_and_mask _ _ _ _ _ 0xFFE000 (by decide)).trans (show _ = (0x268000 : PWord) by decide)

theorem arNegY (yop : BitVec 2) (xop : BitVec 3) (cond : Cond) : Statement (.arNegY yop xop cond) := fun _ =>
  (encodeCondCompute_and_mask _ _ _ _ _ 0xFFE000 (by decide)).trans (show _ = (0x22A000 : PWord) by decide)

theorem afNegY (yop : BitVec 2) (xop : BitVec 3) (cond : Cond) : Statement (.afNegY yop xop cond) := fun _ =>
  (encodeCondCompute_and_mask _ _ _ _ _ 0xFFE000 (by decide)).trans (show _ = (0x26A000 : PWord) by decide)

theorem arSubC (yop : BitVec 2) (xop : BitVec 3) (cond : Cond) : Statement (.arSubC yop xop cond) := fun _ =>
  (encodeCondCompute_and_mask _ _ _ _ _ 0xFFE000 (by decide)).trans (show _ = (0x22C000 : PWord) by decide)

theorem afSubC (yop : BitVec 2) (xop : BitVec 3) (cond : Cond) : Statement (.afSubC yop xop cond) := fun _ =>
  (encodeCondCompute_and_mask _ _ _ _ _ 0xFFE000 (by decide)).trans (show _ = (0x26C000 : PWord) by decide)

theorem arSub (yop : BitVec 2) (xop : BitVec 3) (cond : Cond) : Statement (.arSub yop xop cond) := fun _ =>
  (encodeCondCompute_and_mask _ _ _ _ _ 0xFFE000 (by decide)).trans (show _ = (0x22E000 : PWord) by decide)

theorem afSub (yop : BitVec 2) (xop : BitVec 3) (cond : Cond) : Statement (.afSub yop xop cond) := fun _ =>
  (encodeCondCompute_and_mask _ _ _ _ _ 0xFFE000 (by decide)).trans (show _ = (0x26E000 : PWord) by decide)

theorem arDecY (yop : BitVec 2) (xop : BitVec 3) (cond : Cond) : Statement (.arDecY yop xop cond) := fun _ =>
  (encodeCondCompute_and_mask _ _ _ _ _ 0xFFE000 (by decide)).trans (show _ = (0x230000 : PWord) by decide)

theorem afDecY (yop : BitVec 2) (xop : BitVec 3) (cond : Cond) : Statement (.afDecY yop xop cond) := fun _ =>
  (encodeCondCompute_and_mask _ _ _ _ _ 0xFFE000 (by decide)).trans (show _ = (0x270000 : PWord) by decide)

theorem arRsub (yop : BitVec 2) (xop : BitVec 3) (cond : Cond) : Statement (.arRsub yop xop cond) := fun _ =>
  (encodeCondCompute_and_mask _ _ _ _ _ 0xFFE000 (by decide)).trans (show _ = (0x232000 : PWord) by decide)

theorem afRsub (yop : BitVec 2) (xop : BitVec 3) (cond : Cond) : Statement (.afRsub yop xop cond) := fun _ =>
  (encodeCondCompute_and_mask _ _ _ _ _ 0xFFE000 (by decide)).trans (show _ = (0x272000 : PWord) by decide)

theorem arRsubC (yop : BitVec 2) (xop : BitVec 3) (cond : Cond) : Statement (.arRsubC yop xop cond) := fun _ =>
  (encodeCondCompute_and_mask _ _ _ _ _ 0xFFE000 (by decide)).trans (show _ = (0x234000 : PWord) by decide)

theorem afRsubC (yop : BitVec 2) (xop : BitVec 3) (cond : Cond) : Statement (.afRsubC yop xop cond) := fun _ =>
  (encodeCondCompute_and_mask _ _ _ _ _ 0xFFE000 (by decide)).trans (show _ = (0x274000 : PWord) by decide)

theorem arNotX (yop : BitVec 2) (xop : BitVec 3) (cond : Cond) : Statement (.arNotX yop xop cond) := fun _ =>
  (encodeCondCompute_and_mask _ _ _ _ _ 0xFFE000 (by decide)).trans (show _ = (0x236000 : PWord) by decide)

theorem afNotX (yop : BitVec 2) (xop : BitVec 3) (cond : Cond) : Statement (.afNotX yop xop cond) := fun _ =>
  (encodeCondCompute_and_mask _ _ _ _ _ 0xFFE000 (by decide)).trans (show _ = (0x276000 : PWord) by decide)

theorem arAnd (yop : BitVec 2) (xop : BitVec 3) (cond : Cond) : Statement (.arAnd yop xop cond) := fun _ =>
  (encodeCondCompute_and_mask _ _ _ _ _ 0xFFE000 (by decide)).trans (show _ = (0x238000 : PWord) by decide)

theorem afAnd (yop : BitVec 2) (xop : BitVec 3) (cond : Cond) : Statement (.afAnd yop xop cond) := fun _ =>
  (encodeCondCompute_and_mask _ _ _ _ _ 0xFFE000 (by decide)).trans (show _ = (0x278000 : PWord) by decide)

theorem arOr (yop : BitVec 2) (xop : BitVec 3) (cond : Cond) : Statement (.arOr yop xop cond) := fun _ =>
  (encodeCondCompute_and_mask _ _ _ _ _ 0xFFE000 (by decide)).trans (show _ = (0x23A000 : PWord) by decide)

theorem afOr (yop : BitVec 2) (xop : BitVec 3) (cond : Cond) : Statement (.afOr yop xop cond) := fun _ =>
  (encodeCondCompute_and_mask _ _ _ _ _ 0xFFE000 (by decide)).trans (show _ = (0x27A000 : PWord) by decide)

theorem arXor (yop : BitVec 2) (xop : BitVec 3) (cond : Cond) : Statement (.arXor yop xop cond) := fun _ =>
  (encodeCondCompute_and_mask _ _ _ _ _ 0xFFE000 (by decide)).trans (show _ = (0x23C000 : PWord) by decide)

theorem afXor (yop : BitVec 2) (xop : BitVec 3) (cond : Cond) : Statement (.afXor yop xop cond) := fun _ =>
  (encodeCondCompute_and_mask _ _ _ _ _ 0xFFE000 (by decide)).trans (show _ = (0x27C000 : PWord) by decide)

theorem arAbsX (yop : BitVec 2) (xop : BitVec 3) (cond : Cond) : Statement (.arAbsX yop xop cond) := fun _ =>
  (encodeCondCompute_and_mask _ _ _ _ _ 0xFFE000 (by decide)).trans (show _ = (0x23E000 : PWord) by decide)

theorem afAbsX (yop : BitVec 2) (xop : BitVec 3) (cond : Cond) : Statement (.afAbsX yop xop cond) := fun _ =>
  (encodeCondCompute_and_mask _ _ _ _ _ 0xFFE000 (by decide)).trans (show _ = (0x27E000 : PWord) by decide)

theorem computeMove (z : Dest) (amf : Amf) (yop : BitVec 2) (xop : BitVec 3) (ddreg sdreg : BitVec 4) : Statement (.computeMove z amf yop xop ddreg sdreg) := by
  intro _
  simp (disch := decide) [encode, Instr.row, or_and_mask, putAt_and_mask, putCompute]

theorem loadImm14 (dst : Slot) (data : BitVec 14) : Statement (.loadImm14 dst data) := by
  intro _
  simp (disch := decide) [encode, Instr.row, or_and_mask, putAt_and_mask]

theorem loadImm16 (data : Word) (dreg : BitVec 4) : Statement (.loadImm16 data dreg) := by
  intro _
  simp (disch := decide) [encode, Instr.row, or_and_mask, putAt_and_mask]

theorem pmRead (z : Dest) (yop : BitVec 2) (xop : BitVec 3) (dreg : BitVec 4) (i m : BitVec 2) : Statement (.pmRead z yop xop dreg i m) := fun _ =>
  (encodePm_and_mask _ _ _ _ _ _ _ _ 0xFBE000 (by decide)).trans (show _ = (0x500000 : PWord) by decide)

theorem pmReadAlu (z : Dest) (fn : AluFn) (yop : BitVec 2) (xop : BitVec 3) (dreg : BitVec 4) (i m : BitVec 2) : Statement (.pmReadAlu z fn yop xop dreg i m) := fun _ =>
  (encodePm_and_mask _ _ _ _ _ _ _ _ 0xFA0000 (by decide)).trans (show _ = (0x520000 : PWord) by cases fn <;> decide)

theorem pmReadMac8to15 (z : Dest) (fn : MacFn) (yop : BitVec 2) (xop : BitVec 3) (dreg : BitVec 4) (i m : BitVec 2) : Statement (.pmReadMac8to15 z fn yop xop dreg i m) := fun h =>
  (encodePm_and_mask _ _ _ _ _ _ _ _ 0xFB0000 (by decide)).trans (show _ = (0x510000 : PWord) by
    cases fn <;> first | exact absurd h Bool.false_ne_true | decide)

theorem pmReadMac4to7 (z : Dest) (fn : MacFn) (yop : BitVec 2) (xop : BitVec 3) (dreg : BitVec 4) (i m : BitVec 2) : Statement (.pmReadMac4to7 z fn yop xop dreg i m) := fun h =>
  (encodePm_and_mask _ _ _ _ _ _ _ _ 0xFB8000 (by decide)).trans (show _ = (0x508000 : PWord) by
    cases fn <;> first | exact absurd h Bool.false_ne_true | decide)

theorem pmReadMac2to3 (z : Dest) (fn : MacFn) (yop : BitVec 2) (xop : BitVec 3) (dreg : BitVec 4) (i m : BitVec 2) : Statement (.pmReadMac2to3 z fn yop xop dreg i m) := fun h =>
  (encodePm_and_mask _ _ _ _ _ _ _ _ 0xFBC000 (by decide)).trans (show _ = (0x504000 : PWord) by
    cases fn <;> first | exact absurd h Bool.false_ne_true | decide)

theorem pmReadMac1 (z : Dest) (yop : BitVec 2) (xop : BitVec 3) (dreg : BitVec 4) (i m : BitVec 2) : Statement (.pmReadMac1 z yop xop dreg i m) := fun _ =>
  (encodePm_and_mask _ _ _ _ _ _ _ _ 0xFBE000 (by decide)).trans (show _ = (0x502000 : PWord) by decide)

theorem pmWrite (z : Dest) (yop : BitVec 2) (xop : BitVec 3) (dreg : BitVec 4) (i m : BitVec 2) : Statement (.pmWrite z yop xop dreg i m) := fun _ =>
  (encodePm_and_mask _ _ _ _ _ _ _ _ 0xFBE000 (by decide)).trans (show _ = (0x580000 : PWord) by decide)

theorem pmWriteAlu (z : Dest) (fn : AluFn) (yop : BitVec 2) (xop : BitVec 3) (dreg : BitVec 4) (i m : BitVec 2) : Statement (.pmWriteAlu z fn yop xop dreg i m) := fun _ =>
  (encodePm_and_mask _ _ _ _ _ _ _ _ 0xFA0000 (by decide)).trans (show _ = (0x5A0000 : PWord) by cases fn <;> decide)

theorem pmWriteMac8to15 (z : Dest) (fn : MacFn) (yop : BitVec 2) (xop : BitVec 3) (dreg : BitVec 4) (i m : BitVec 2) : Statement (.pmWriteMac8to15 z fn yop xop dreg i m) := fun h =>
  (encodePm_and_mask _ _ _ _ _ _ _ _ 0xFB0000 (by decide)).trans (show _ = (0x590000 : PWord) by
    cases fn <;> first | exact absurd h Bool.false_ne_true | decide)

theorem pmWriteMac4to7 (z : Dest) (fn : MacFn) (yop : BitVec 2) (xop : BitVec 3) (dreg : BitVec 4) (i m : BitVec 2) : Statement (.pmWriteMac4to7 z fn yop xop dreg i m) := fun h =>
  (encodePm_and_mask _ _ _ _ _ _ _ _ 0xFB8000 (by decide)).trans (show _ = (0x588000 : PWord) by
    cases fn <;> first | exact absurd h Bool.false_ne_true | decide)

theorem pmWriteMac2to3 (z : Dest) (fn : MacFn) (yop : BitVec 2) (xop : BitVec 3) (dreg : BitVec 4) (i m : BitVec 2) : Statement (.pmWriteMac2to3 z fn yop xop dreg i m) := fun h =>
  (encodePm_and_mask _ _ _ _ _ _ _ _ 0xFBC000 (by decide)).trans (show _ = (0x584000 : PWord) by
    cases fn <;> first | exact absurd h Bool.false_ne_true | decide)

theorem pmWriteMac1 (z : Dest) (yop : BitVec 2) (xop : BitVec 3) (dreg : BitVec 4) (i m : BitVec 2) : Statement (.pmWriteMac1 z yop xop dreg i m) := fun _ =>
  (encodePm_and_mask _ _ _ _ _ _ _ _ 0xFBE000 (by decide)).trans (show _ = (0x582000 : PWord) by decide)

theorem dmRead (g : Gen) (z : Dest) (yop : BitVec 2) (xop : BitVec 3) (dreg : BitVec 4) (i m : BitVec 2) : Statement (.dmRead g z yop xop dreg i m) := fun _ =>
  (encodeDm_and_mask _ _ _ _ _ _ _ _ _ 0xEBE000 (by decide)).trans (show _ = (0x600000 : PWord) by decide)

theorem dmReadAlu (g : Gen) (z : Dest) (fn : AluFn) (yop : BitVec 2) (xop : BitVec 3) (dreg : BitVec 4) (i m : BitVec 2) : Statement (.dmReadAlu g z fn yop xop dreg i m) := fun _ =>
  (encodeDm_and_mask _ _ _ _ _ _ _ _ _ 0xEA0000 (by decide)).trans (show _ = (0x620000 : PWord) by cases fn <;> decide)

theorem dmReadMac8to15 (g : Gen) (z : Dest) (fn : MacFn) (yop : BitVec 2) (xop : BitVec 3) (dreg : BitVec 4) (i m : BitVec 2) : Statement (.dmReadMac8to15 g z fn yop xop dreg i m) := fun h =>
  (encodeDm_and_mask _ _ _ _ _ _ _ _ _ 0xEB0000 (by decide)).trans (show _ = (0x610000 : PWord) by
    cases fn <;> first | exact absurd h Bool.false_ne_true | decide)

theorem dmReadMac4to7 (g : Gen) (z : Dest) (fn : MacFn) (yop : BitVec 2) (xop : BitVec 3) (dreg : BitVec 4) (i m : BitVec 2) : Statement (.dmReadMac4to7 g z fn yop xop dreg i m) := fun h =>
  (encodeDm_and_mask _ _ _ _ _ _ _ _ _ 0xEB8000 (by decide)).trans (show _ = (0x608000 : PWord) by
    cases fn <;> first | exact absurd h Bool.false_ne_true | decide)

theorem dmReadMac2to3 (g : Gen) (z : Dest) (fn : MacFn) (yop : BitVec 2) (xop : BitVec 3) (dreg : BitVec 4) (i m : BitVec 2) : Statement (.dmReadMac2to3 g z fn yop xop dreg i m) := fun h =>
  (encodeDm_and_mask _ _ _ _ _ _ _ _ _ 0xEBC000 (by decide)).trans (show _ = (0x604000 : PWord) by
    cases fn <;> first | exact absurd h Bool.false_ne_true | decide)

theorem dmReadMac1 (g : Gen) (z : Dest) (yop : BitVec 2) (xop : BitVec 3) (dreg : BitVec 4) (i m : BitVec 2) : Statement (.dmReadMac1 g z yop xop dreg i m) := fun _ =>
  (encodeDm_and_mask _ _ _ _ _ _ _ _ _ 0xEBE000 (by decide)).trans (show _ = (0x602000 : PWord) by decide)

theorem dmWrite (g : Gen) (z : Dest) (yop : BitVec 2) (xop : BitVec 3) (dreg : BitVec 4) (i m : BitVec 2) : Statement (.dmWrite g z yop xop dreg i m) := fun _ =>
  (encodeDm_and_mask _ _ _ _ _ _ _ _ _ 0xEBE000 (by decide)).trans (show _ = (0x680000 : PWord) by decide)

theorem dmWriteAlu (g : Gen) (z : Dest) (fn : AluFn) (yop : BitVec 2) (xop : BitVec 3) (dreg : BitVec 4) (i m : BitVec 2) : Statement (.dmWriteAlu g z fn yop xop dreg i m) := fun _ =>
  (encodeDm_and_mask _ _ _ _ _ _ _ _ _ 0xEA0000 (by decide)).trans (show _ = (0x6A0000 : PWord) by cases fn <;> decide)

theorem dmWriteMac8to15 (g : Gen) (z : Dest) (fn : MacFn) (yop : BitVec 2) (xop : BitVec 3) (dreg : BitVec 4) (i m : BitVec 2) : Statement (.dmWriteMac8to15 g z fn yop xop dreg i m) := fun h =>
  (encodeDm_and_mask _ _ _ _ _ _ _ _ _ 0xEB0000 (by decide)).trans (show _ = (0x690000 : PWord) by
    cases fn <;> first | exact absurd h Bool.false_ne_true | decide)

theorem dmWriteMac4to7 (g : Gen) (z : Dest) (fn : MacFn) (yop : BitVec 2) (xop : BitVec 3) (dreg : BitVec 4) (i m : BitVec 2) : Statement (.dmWriteMac4to7 g z fn yop xop dreg i m) := fun h =>
  (encodeDm_and_mask _ _ _ _ _ _ _ _ _ 0xEB8000 (by decide)).trans (show _ = (0x688000 : PWord) by
    cases fn <;> first | exact absurd h Bool.false_ne_true | decide)

theorem dmWriteMac2to3 (g : Gen) (z : Dest) (fn : MacFn) (yop : BitVec 2) (xop : BitVec 3) (dreg : BitVec 4) (i m : BitVec 2) : Statement (.dmWriteMac2to3 g z fn yop xop dreg i m) := fun h =>
  (encodeDm_and_mask _ _ _ _ _ _ _ _ _ 0xEBC000 (by decide)).trans (show _ = (0x684000 : PWord) by
    cases fn <;> first | exact absurd h Bool.false_ne_true | decide)

theorem dmWriteMac1 (g : Gen) (z : Dest) (yop : BitVec 2) (xop : BitVec 3) (dreg : BitVec 4) (i m : BitVec 2) : Statement (.dmWriteMac1 g z yop xop dreg i m) := fun _ =>
  (encodeDm_and_mask _ _ _ _ _ _ _ _ _ 0xEBE000 (by decide)).trans (show _ = (0x682000 : PWord) by decide)

theorem loadDirect (dst : Slot) (addr : Addr) : Statement (.loadDirect dst addr) := by
  intro _
  simp (disch := decide) [encode, Instr.row, or_and_mask, putAt_and_mask]

theorem storeDirect (addr : Addr) (src : Slot) : Statement (.storeDirect addr src) := by
  intro _
  simp (disch := decide) [encode, Instr.row, or_and_mask, putAt_and_mask]

theorem storeImm (g : Gen) (data : Word) (i m : BitVec 2) : Statement (.storeImm g data i m) := by
  intro _
  simp (disch := decide) [encode, Instr.row, or_and_mask, putAt_and_mask, putIM]

theorem dualRead (pd dd : BitVec 2) (amf : Amf) (yop : BitVec 2) (xop : BitVec 3) (pmi pmm dmi dmm : BitVec 2) : Statement (.dualRead pd dd amf yop xop pmi pmm dmi dmm) := by
  intro _
  simp (disch := decide) [encode, Instr.row, or_and_mask, putAt_and_mask, putCompute]

end Sys2Proof.Laws.Encoded
end

