-- ==== Sys2Proof/Tests/Slice0.lean ====
section
/-!
SUPPORT. The model's own tests: the checks of WellFormed, a decoded word for every constructor, single instructions and steps
with the results that the examples of spec/ give, and a witness for the hypotheses of each statement.
-/
namespace Sys2Proof.Tests

open Sys2Proof.Machine

/-! ### The checks of WellFormed refuse ill-formed terms -/

/-- A MAC function below 8 in each of the four rows for 8 to 15. -/
theorem test_wellFormed_refuses_outside_8to15 :
    Instr.wellFormed (.pmReadMac8to15 .primary .subRnd 0 0 0 0 0) = false ∧
    Instr.wellFormed (.pmWriteMac8to15 .primary .mulUU 0 0 0 0 0) = false ∧
    Instr.wellFormed (.dmReadMac8to15 .dag1 .primary .mulSS 0 0 0 0 0) = false ∧
    Instr.wellFormed (.dmWriteMac8to15 .dag2 .feedback .noOp 0 0 0 0 0) = false := by decide

/-- A MAC function outside 4 to 7 in each of the four rows for 4 to 7. -/
theorem test_wellFormed_refuses_outside_4to7 :
    Instr.wellFormed (.pmReadMac4to7 .primary .subRnd 0 0 0 0 0) = false ∧
    Instr.wellFormed (.pmWriteMac4to7 .primary .addSS 0 0 0 0 0) = false ∧
    Instr.wellFormed (.dmReadMac4to7 .dag1 .primary .subUU 0 0 0 0 0) = false ∧
    Instr.wellFormed (.dmWriteMac4to7 .dag2 .feedback .mulRnd 0 0 0 0 0) = false := by decide

/-- A MAC function other than 2 and 3 in each of the four rows for 2 and 3. -/
theorem test_wellFormed_refuses_outside_2to3 :
    Instr.wellFormed (.pmReadMac2to3 .primary .mulRnd 0 0 0 0 0) = false ∧
    Instr.wellFormed (.pmWriteMac2to3 .primary .mulSS 0 0 0 0 0) = false ∧
    Instr.wellFormed (.dmReadMac2to3 .dag1 .primary .noOp 0 0 0 0 0) = false ∧
    Instr.wellFormed (.dmWriteMac2to3 .dag2 .feedback .addSS 0 0 0 0 0) = false := by decide

/-! ### Decoding: one word for every constructor, written from the layouts of 30_encoding.md R102 and the opcode table with
every ignored bit set at random -/

/-- F_NOP and F_RSVD (R283, R293). -/
theorem test_decode_nop_and_reserved :
    decode 0x00E6B4 = .nop ∧
    decode 0x01A74D = .reserved01 ∧
    decode 0x029E0D = .reserved02 ∧
    decode 0x031327 = .reserved03 ∧
    decode 0x08A3A4 = .reserved08 :=
  ⟨rfl, rfl, rfl, rfl, rfl⟩

/-- F_STACK, F_SATMR, F_DIVS, F_DIVQ, F_MODIFY, F_MODE (R160, R221, R190, R191, R147, R133). -/
theorem test_decode_system :
    decode 0x045C7F = .stackControl true true true 3 ∧
    decode 0x058B2F = .satMr ∧
    decode 0x063F08 = .divs 3 7 ∧
    decode 0x072F90 = .divq 7 ∧
    decode 0x0918E8 = .modify .dag1 2 0 ∧
    decode 0x0C9DC9 = .modeControl 2 1 3 1 3 0 2 :=
  ⟨rfl, rfl, rfl, rfl, rfl, rfl⟩

/-- F_MOV, F_LDR, F_LDD (R130 to R132). -/
theorem test_decode_moves :
    decode 0x0D3198 = .moveReg ⟨0, 9⟩ ⟨1, 8⟩ ∧
    decode 0x3ED904 = .loadImm14 ⟨3, 4⟩ 0x2D90 ∧
    decode 0x48E25D = .loadImm16 0x8E25 0xD :=
  ⟨rfl, rfl, rfl⟩

/-- F_RET, F_JIND, F_JMP, F_DO (R284 to R291). -/
theorem test_decode_flow :
    decode 0x0AE74E = .rts .notCe ∧
    decode 0x0AF675 = .rti .ge ∧
    decode 0x0B9940 = .jumpInd 1 .eq ∧
    decode 0x0B00B3 = .callInd 2 .le ∧
    decode 0x170367 = .doUntil 0x3036 .notAv ∧
    decode 0x1B0D54 = .jump 0x30D5 .lt ∧
    decode 0x1DE20B = .call 0x1E20 .pos :=
  ⟨rfl, rfl, rfl, rfl, rfl, rfl, rfl⟩

/-- F_SCOND (R232 to R248). -/
theorem test_decode_conditional_shifts :
    decode 0x0E8417 = .lshiftHi 4 .notAv ∧
    decode 0x0E08F7 = .orLshiftHi 0 .notAv ∧
    decode 0x0E116E = .lshiftLo 1 .notCe ∧
    decode 0x0E9D4A = .orLshiftLo 5 .neg ∧
    decode 0x0E21DD = .ashiftHi 1 .notMv ∧
    decode 0x0EAC94 = .orAshiftHi 4 .lt ∧
    decode 0x0EB192 = .ashiftLo 1 .gt ∧
    decode 0x0EB97C = .orAshiftLo 1 .mv ∧
    decode 0x0EC410 = .normHi 4 .eq ∧
    decode 0x0E4E30 = .orNormHi 6 .eq ∧
    decode 0x0E50B3 = .normLo 0 .le ∧
    decode 0x0EDF76 = .orNormLo 7 .av ∧
    decode 0x0E6748 = .expHi 7 .ac ∧
    decode 0x0EED0D = .expHix 5 .notMv ∧
    decode 0x0EF630 = .expLo 6 .eq ∧
    decode 0x0EFD04 = .expAdj 5 .lt :=
  ⟨rfl, rfl, rfl, rfl, rfl, rfl, rfl, rfl, rfl, rfl, rfl, rfl, rfl, rfl, rfl, rfl⟩

/-- F_SIMM (R249). -/
theorem test_decode_immediate_shifts :
    decode 0x0F860A = .lshiftHiImm 6 0xA ∧
    decode 0x0F8CDA = .orLshiftHiImm 4 0xDA ∧
    decode 0x0F91E2 = .lshiftLoImm 1 0xE2 ∧
    decode 0x0F9BDA = .orLshiftLoImm 3 0xDA ∧
    decode 0x0FA0D1 = .ashiftHiImm 0 0xD1 ∧
    decode 0x0FACD7 = .orAshiftHiImm 4 0xD7 ∧
    decode 0x0FB197 = .ashiftLoImm 1 0x97 ∧
    decode 0x0FBC96 = .orAshiftLoImm 4 0x96 ∧
    decode 0x0F57BE = .shiftImmReserved :=
  ⟨rfl, rfl, rfl, rfl, rfl, rfl, rfl, rfl, rfl⟩

/-- F_SMOV, F_SPM, F_SDM (R267 to R269). -/
theorem test_decode_shift_multifunction :
    decode 0x1023D5 = .shiftMove .ashiftHi 3 0xD 5 ∧
    decode 0x114CB2 = .shiftPmRead .orNormHi 4 0xB 0 2 ∧
    decode 0x11EDE6 = .shiftPmWrite .expHix 5 0xE 1 2 ∧
    decode 0x126A63 = .shiftDmRead .dag1 .expHix 2 6 0 3 ∧
    decode 0x12A7A1 = .shiftDmWrite .dag1 .ashiftHi 7 0xA 0 1 :=
  ⟨rfl, rfl, rfl, rfl, rfl⟩

/-- F_CCOND with AMF[4] = 0 (R204 to R220). -/
theorem test_decode_conditional_mac :
    decode 0x200766 = .condNoCompute .primary 0 7 .av ∧
    decode 0x2038AA = .mrMulRnd 3 0 .neg ∧
    decode 0x242D05 = .mfMulRnd 1 5 .ge ∧
    decode 0x204DA8 = .mrAddRnd 1 5 .ac ∧
    decode 0x2457BA = .mfAddRnd 2 7 .neg ∧
    decode 0x206415 = .mrSubRnd 0 4 .ge ∧
    decode 0x2461DB = .mfSubRnd 0 1 .pos ∧
    decode 0x2083BF = .mrMulSS 0 3 .always ∧
    decode 0x249A73 = .mfMulSS 3 2 .le ∧
    decode 0x20AFD5 = .mrMulSU 1 7 .ge ∧
    decode 0x24B850 = .mfMulSU 3 0 .eq ∧
    decode 0x20D572 = .mrMulUS 2 5 .gt ∧
    decode 0x24D135 = .mfMulUS 2 1 .ge ∧
    decode 0x20F8FB = .mrMulUU 3 0 .pos ∧
    decode 0x24ECE4 = .mfMulUU 1 4 .lt ∧
    decode 0x2112F0 = .mrAddSS 2 2 .eq ∧
    decode 0x251A70 = .mfAddSS 3 2 .eq ∧
    decode 0x212205 = .mrAddSU 0 2 .ge ∧
    decode 0x253769 = .mfAddSU 2 7 .notAc ∧
    decode 0x2159B5 = .mrAddUS 3 1 .ge ∧
    decode 0x255505 = .mfAddUS 2 5 .ge ∧
    decode 0x216EB1 = .mrAddUU 1 6 .ne ∧
    decode 0x257ED1 = .mfAddUU 3 6 .ne ∧
    decode 0x2196B0 = .mrSubSS 2 6 .eq ∧
    decode 0x259877 = .mfSubSS 3 0 .notAv ∧
    decode 0x21ABF2 = .mrSubSU 1 3 .gt ∧
    decode 0x25B1AF = .mfSubSU 2 1 .always ∧
    decode 0x21C761 = .mrSubUS 0 7 .ne ∧
    decode 0x25C6A7 = .mfSubUS 0 6 .notAv ∧
    decode 0x21E3E4 = .mrSubUU 0 3 .lt ∧
    decode 0x25F0A9 = .mfSubUU 2 0 .notAc :=
  ⟨rfl, rfl, rfl, rfl, rfl, rfl, rfl, rfl, rfl, rfl, rfl, rfl, rfl, rfl, rfl, rfl, rfl, rfl, rfl, rfl, rfl, rfl,
    rfl, rfl, rfl, rfl, rfl, rfl, rfl, rfl, rfl⟩

/-- F_CCOND with AMF[4] = 1 (R173 to R189). -/
theorem test_decode_conditional_alu :
    decode 0x221D87 = .arPassY 3 5 .notAv ∧
    decode 0x2618E2 = .afPassY 3 0 .gt ∧
    decode 0x223C74 = .arIncY 3 4 .lt ∧
    decode 0x262531 = .afIncY 0 5 .ne ∧
    decode 0x22514C = .arAddC 2 1 .mv ∧
    decode 0x2642EA = .afAddC 0 2 .neg ∧
    decode 0x227D1B = .arAdd 3 5 .pos ∧
    decode 0x267473 = .afAdd 2 4 .le ∧
    decode 0x228D6E = .arNotY 1 5 .notCe ∧
    decode 0x269D20 = .afNotY 3 5 .eq ∧
    decode 0x22B347 = .arNegY 2 3 .notAv ∧
    decode 0x26BFF2 = .afNegY 3 7 .gt ∧
    decode 0x22C902 = .arSubC 1 1 .gt ∧
    decode 0x26CE05 = .afSubC 1 6 .ge ∧
    decode 0x22FCED = .arSub 3 4 .notMv ∧
    decode 0x26E6CC = .afSub 0 6 .mv ∧
    decode 0x23164A = .arDecY 2 6 .neg ∧
    decode 0x2704BC = .afDecY 0 4 .mv ∧
    decode 0x232CBD = .arRsub 1 4 .notMv ∧
    decode 0x273D4A = .afRsub 3 5 .neg ∧
    decode 0x23598F = .arRsubC 3 1 .always ∧
    decode 0x274E07 = .afRsubC 1 6 .notAv ∧
    decode 0x236A18 = .arNotX 1 2 .ac ∧
    decode 0x277AF4 = .afNotX 3 2 .lt ∧
    decode 0x2393FC = .arAnd 2 3 .mv ∧
    decode 0x2790F8 = .afAnd 2 0 .ac ∧
    decode 0x23A875 = .arOr 1 0 .ge ∧
    decode 0x27AACB = .afOr 1 2 .pos ∧
    decode 0x23CCAF = .arXor 1 4 .always ∧
    decode 0x27D46C = .afXor 2 4 .mv ∧
    decode 0x23E97C = .arAbsX 1 1 .mv ∧
    decode 0x27E6E1 = .afAbsX 0 6 .ne :=
  ⟨rfl, rfl, rfl, rfl, rfl, rfl, rfl, rfl, rfl, rfl, rfl, rfl, rfl, rfl, rfl, rfl, rfl, rfl, rfl, rfl, rfl, rfl,
    rfl, rfl, rfl, rfl, rfl, rfl, rfl, rfl, rfl, rfl⟩

/-- F_CPM (R264, R265, R151). -/
theorem test_decode_program_memory :
    decode 0x501031 = .pmRead .primary 2 0 3 0 1 ∧
    decode 0x53DEEF = .pmReadAlu .primary .xor 3 6 0xE 3 3 ∧
    decode 0x51BAEA = .pmReadMac8to15 .primary .subSU 3 2 0xE 2 2 ∧
    decode 0x54DE0D = .pmReadMac4to7 .feedback .mulUS 3 6 0 3 1 ∧
    decode 0x5071D3 = .pmReadMac2to3 .primary .subRnd 2 1 0xD 0 3 ∧
    decode 0x502213 = .pmReadMac1 .primary 0 2 1 0 3 ∧
    decode 0x581F50 = .pmWrite .primary 3 7 5 0 0 ∧
    decode 0x5B7F9A = .pmWriteAlu .primary .notX 3 7 9 2 2 ∧
    decode 0x5951C1 = .pmWriteMac8to15 .primary .addUS 2 1 0xC 0 1 ∧
    decode 0x5C9242 = .pmWriteMac4to7 .feedback .mulSS 2 2 4 0 2 ∧
    decode 0x587EE0 = .pmWriteMac2to3 .primary .subRnd 3 6 0xE 0 0 ∧
    decode 0x58254A = .pmWriteMac1 .primary 0 5 4 2 2 :=
  ⟨rfl, rfl, rfl, rfl, rfl, rfl, rfl, rfl, rfl, rfl, rfl, rfl⟩

/-- F_CDM, F_DMDIR, F_DMIMM (R262, R263, R148 to R151). -/
theorem test_decode_data_memory :
    decode 0x70089F = .dmRead .dag2 .primary 1 0 9 3 3 ∧
    decode 0x772614 = .dmReadAlu .dag2 .feedback .rsub 0 6 1 1 0 ∧
    decode 0x757403 = .dmReadMac8to15 .dag2 .feedback .addUU 2 4 0 0 3 ∧
    decode 0x64811C = .dmReadMac4to7 .dag1 .feedback .mulSS 0 1 1 3 0 ∧
    decode 0x7449DF = .dmReadMac2to3 .dag2 .feedback .addRnd 1 1 0xD 3 3 ∧
    decode 0x703A72 = .dmReadMac1 .dag2 .primary 3 2 7 0 2 ∧
    decode 0x7C0820 = .dmWrite .dag2 .feedback 1 0 2 0 0 ∧
    decode 0x7FF5E8 = .dmWriteAlu .dag2 .feedback .absX 2 5 0xE 2 0 ∧
    decode 0x79D69E = .dmWriteMac8to15 .dag2 .primary .subUS 2 6 9 3 2 ∧
    decode 0x6C9ABD = .dmWriteMac4to7 .dag1 .feedback .mulSS 3 2 0xB 3 1 ∧
    decode 0x785E82 = .dmWriteMac2to3 .dag2 .primary .addRnd 3 6 8 0 2 ∧
    decode 0x783159 = .dmWriteMac1 .dag2 .primary 2 1 5 2 1 ∧
    decode 0x8A05E1 = .loadDirect ⟨2, 1⟩ 0x205E ∧
    decode 0x90A3D6 = .storeDirect 0xA3D ⟨0, 6⟩ ∧
    decode 0xAF8808 = .storeImm .dag1 0xF880 2 0 :=
  ⟨rfl, rfl, rfl, rfl, rfl, rfl, rfl, rfl, rfl, rfl, rfl, rfl, rfl, rfl, rfl⟩

/-- F_CMOV, F_DUAL (R261, R266). -/
theorem test_decode_compute_move_and_dual :
    decode 0x2B2D42 = .computeMove .primary (.alu .rsub) 1 5 4 2 ∧
    decode 0xF394FB = .dualRead 3 0 (.alu .and) 2 4 3 3 2 3 :=
  ⟨rfl, rfl⟩

/-! ### One instruction each, with the results the spec's examples give -/

/-- Bank 0 of a reset machine changed. -/
def onBank (f : Bank → Bank) (s : State) : State := onCpu (fun c => { c with bank0 := f c.bank0 }) s

/-- The outcome is a next state with the property. -/
def gives (r : Result) (p : State → Bool) : Bool :=
  match r with
  | .next t => p t
  | .fault _ => false
  | .refused _ => false

/-- The reset machine with the bank 0 registers and the Machine State changed as the test needs. -/
def start (f : Bank → Bank) (g : Cpu → Cpu := id) : State := onCpu g (onBank f State.reset)

/-- 0x7FFF + 1 sets AV and AN and not AC (R171, R176). -/
theorem test_add_overflows :
    gives (exec (.arAdd 0 0 .always) (start fun b => { b with ax0 := 0x7FFF, ay0 := 1 }))
      (fun t => t.cpu.bank0.ar == 0x8000 && t.cpu.astat == 0x06) = true := by decide

/-- The same with AR_SAT: AR is clamped, the flags are those of the unclamped result (R172). -/
theorem test_add_saturates :
    gives (exec (.arAdd 0 0 .always) (start (fun b => { b with ax0 := 0x7FFF, ay0 := 1 }) fun c => { c with mstat := 8 }))
      (fun t => t.cpu.bank0.ar == 0x7FFF && t.cpu.astat == 0x06) = true := by decide

/-- 0x8000 - 1 with AR_SAT clamps to the minimum: carry set (R180). -/
theorem test_sub_saturates :
    gives (exec (.arSub 0 0 .always) (start (fun b => { b with ax0 := 0x8000, ay0 := 1 }) fun c => { c with mstat := 8 }))
      (fun t => t.cpu.bank0.ar == 0x8000 && t.cpu.astat == 0x0C) = true := by decide

/-- 5 - 3 + 0 - 1 with no borrow (R179). -/
theorem test_subC_borrows :
    gives (exec (.arSubC 0 0 .always) (start fun b => { b with ax0 := 5, ay0 := 3 }))
      (fun t => t.cpu.bank0.ar == 1 && t.cpu.astat == 0x08) = true := by decide

/-- ABS of -2 to AF: AS records the sign (R188). -/
theorem test_abs_records_the_sign :
    gives (exec (.afAbsX 0 0 .always) (start fun b => { b with ax0 := 0xFFFE }))
      (fun t => t.cpu.bank0.af == 2 && t.cpu.bank0.ar == 0 && t.cpu.astat == 0x10) = true := by decide

/-- `IF EQ` with AZ = 0 does nothing (R189). -/
theorem test_condition_false :
    gives (exec (.arAdd 0 0 .eq) (start fun b => { b with ax0 := 1, ay0 := 1 }))
      (fun t => t.cpu.bank0.ar == 0 && t.cpu.astat == 0) = true := by decide

/-- `DIVS AY1, AX0` (R190). -/
theorem test_divs :
    gives (exec (.divs 1 0) (start fun b => { b with ax0 := 0x4000, ay1 := 0x1000, ay0 := 0x8000 }))
      (fun t => t.cpu.bank0.af == 0x2001 && t.cpu.bank0.ay0 == 0 && t.cpu.astat == 0) = true := by decide

/-- `DIVQ AX0` (R191). -/
theorem test_divq :
    gives (exec (.divq 0) (start fun b => { b with ax0 := 0x4000, af := 0x2001 }))
      (fun t => t.cpu.bank0.af == 0xC002 && t.cpu.bank0.ay0 == 0 && t.cpu.astat == 0x20) = true := by decide

/-- 0x4000 * 1 lies half way and rounds to the even word 0 (R202). -/
theorem test_round_half_to_even :
    gives (exec (.mrMulRnd 0 0 .always) (start fun b => { b with mx0 := 0x4000, my0 := 1 }))
      (fun t => t.cpu.bank0.mr == 0) = true := by decide

/-- -1 times -1 fractional sets MV (R208). -/
theorem test_mul_overflows :
    gives (exec (.mrMulSS 0 0 .always) (start fun b => { b with mx0 := 0x8000, my0 := 0x8000 }))
      (fun t => t.cpu.bank0.mr == 0x0080000000 && t.cpu.astat == 0x40) = true := by decide

/-- MR minus the largest unsigned product (R219). -/
theorem test_mac_subtracts_unsigned :
    gives (exec (.mrSubUU 0 0 .always) (start fun b => { b with mx0 := 0xFFFF, my0 := 0xFFFF }))
      (fun t => t.cpu.bank0.mr == 0xFE0003FFFE && t.cpu.astat == 0x40) = true := by decide

/-- The middle word to MF; MR is untouched (R220). -/
theorem test_mac_to_mf :
    gives (exec (.mfMulSS 0 0 .always) (start fun b => { b with mx0 := 0x4000, my0 := 0x4000, mr0 := 7 }))
      (fun t => t.cpu.bank0.mf == 0x2000 && t.cpu.bank0.mr == 7 && t.cpu.astat == 0) = true := by decide

/-- Saturating MR to the most positive 32-bit value (R221). -/
theorem test_satMr :
    gives (exec .satMr (start (fun b => { b with mr1 := 0x8000, mr0 := 1 }) fun c => { c with astat := 0x40 }))
      (fun t => t.cpu.bank0.mr == 0x007FFFFFFF && t.cpu.astat == 0x40) = true := by decide

/-- LSHIFT by SE = -4 (R232). -/
theorem test_lshift_right :
    gives (exec (.lshiftHi 0 .always) (start fun b => { b with si := 0x1234, se := 0xFC }))
      (fun t => t.cpu.bank0.sr == 0x01234000) = true := by decide

/-- ASHIFT BY -3 (LO) (R249). -/
theorem test_ashift_immediate :
    gives (exec (.ashiftLoImm 0 0xFD) (start fun b => { b with si := 0x8000 }))
      (fun t => t.cpu.bank0.sr == 0xFFFFF000) = true := by decide

/-- NORM with SE = -10 merged into SR (R241). -/
theorem test_norm_left :
    gives (exec (.orNormHi 0 .always) (start fun b => { b with si := 0x0012, se := 0xF6, sr0 := 3 }))
      (fun t => t.cpu.bank0.sr == 0x48000003) = true := by decide

/-- NORM with SE = 1 shifts AC in (R240). -/
theorem test_norm_right :
    gives (exec (.normHi 0 .always) (start fun b => { b with si := 0x8000, se := 1 }))
      (fun t => t.cpu.bank0.sr == 0x40000000) = true := by decide

/-- EXP (HI) of 0xFFF0 (R244). -/
theorem test_exp_hi :
    gives (exec (.expHi 0 .always) (start fun b => { b with si := 0xFFF0 }))
      (fun t => t.cpu.bank0.se == 0xF5 && t.cpu.astat == 0x80) = true := by decide

/-- EXP (HIX) after an overflow: exponent 1, the opposite sign (R245). -/
theorem test_exp_hix :
    gives (exec (.expHix 3 .always) (start (fun b => { b with ar := 0x8000 }) fun c => { c with astat := 0x04 }))
      (fun t => t.cpu.bank0.se == 1 && t.cpu.astat == 0x04) = true := by decide

/-- EXP (LO) goes on where the upper word was all sign (R246). -/
theorem test_exp_lo :
    gives (exec (.expLo 0 .always) (start (fun b => { b with si := 0xFFF0, se := 0xF1 }) fun c => { c with astat := 0x80 }))
      (fun t => t.cpu.bank0.se == 0xE5) = true := by decide

/-- EXPADJ keeps the larger exponent (R247). -/
theorem test_expAdj :
    gives (exec (.expAdj 0 .always) (start fun b => { b with si := 0x0012, sb := 0x10 }))
      (fun t => t.cpu.bank0.sb == 0x16) = true := by decide

/-- `AX0 = SE` widens by sign (R130). -/
theorem test_move_widens :
    gives (exec (.moveReg ⟨0, 0⟩ ⟨0, 9⟩) (start fun b => { b with se := 0xF1 }))
      (fun t => t.cpu.bank0.ax0 == 0xFFF1) = true := by decide

/-- `CNTR = 10` pushes the old count (R132). -/
theorem test_cntr_write_pushes :
    gives (exec (.loadImm14 ⟨3, 5⟩ 10) (start id fun c => { c with cntr := 7 }))
      (fun t => t.cpu.cntr == 10 && t.cpu.cntrStk.top == 7 && t.cpu.sstat == 0x51) = true := by decide

/-- A load of MR1 extends its sign into MR2 (R131). -/
theorem test_mr1_load_extends :
    gives (exec (.loadImm16 0x8000 12) State.reset) (fun t => t.cpu.bank0.mr == 0xFF80000000) = true := by decide

/-- `MODIFY(I1, M2)` past the end of its window (R147). -/
theorem test_modify_wraps :
    gives (exec (.modify .dag1 1 2) (start id fun c => { c with
        i := c.i.set 1 0x0105, l := c.l.set 1 8, base := c.base.set 1 0x0100, m := c.m.set 2 5 }))
      (fun t => t.cpu.i[1] == 0x0102) = true := by decide

/-- `DM(I0, M1) = 0x1234` (R150), and bit-reversed (R141). -/
theorem test_storeImm :
    gives (exec (.storeImm .dag1 0x1234 0 1) (start id fun c => { c with i := c.i.set 0 0x0200, m := c.m.set 1 1 }))
      (fun t => t.dm.dmWord 0x0200 == 0x1234 && t.cpu.i[0] == 0x0201) = true ∧
    gives (exec (.storeImm .dag1 0x1234 0 1) (start id fun c => { c with i := c.i.set 0 1, m := c.m.set 1 1, mstat := 2 }))
      (fun t => t.dm.dmWord 0x2000 == 0x1234 && t.cpu.i[0] == 2) = true := by decide

/-- A store joined with a computation stores the old register (R263). -/
theorem test_store_takes_the_old_register :
    gives (exec (.dmWriteAlu .dag1 .primary .add 0 0 10 0 0) (start fun b => { b with ax0 := 1, ay0 := 2, ar := 9 }))
      (fun t => t.dm.dmWord 0 == 9 && t.cpu.bank0.ar == 3) = true := by decide

/-- A program memory read takes the payload to the register and the tag to PX (R264). -/
theorem test_pm_read_loads_px :
    gives (exec (.pmRead .primary 0 0 0 0 0) { State.reset with pm := Memory.setPmWord [] 0 0x123456 })
      (fun t => t.cpu.bank0.ax0 == 0x1234 && t.cpu.px == 0x56) = true := by decide

/-- A program memory write takes its tag from PX (R265). -/
theorem test_pm_write_takes_px :
    gives (exec (.pmWrite .primary 0 0 0 0 1) (start (fun b => { b with ax0 := 0x1234 }) fun c => { c with px := 0x56 }))
      (fun t => t.pm.pmWord 0 == 0x123456) = true := by decide

/-- The dual read multiplies the old registers, reads data before program memory and loads both (R266). -/
theorem test_dual_read :
    gives (exec (.dualRead 2 2 (.mac .addSS) 0 0 0 0 0 0) { start fun b => { b with mx0 := 1, my0 := 1 } with
        dm := Memory.setDmWord [] 0 5, pm := Memory.setPmWord [] 0 0x000701 })
      (fun t => t.cpu.bank0.mr == 2 && t.cpu.bank0.mx0 == 5 && t.cpu.bank0.my0 == 7 && t.cpu.px == 1 &&
        t.bus == [.dmRead 0, .pmRead 0]) = true := by decide

/-- `DIS AR_SAT, ENA M_MODE` (R133). -/
theorem test_mode_control :
    gives (exec (.modeControl 0 3 2 0 0 0 0) (start id fun c => { c with mstat := 0x0B }))
      (fun t => t.cpu.mstat == 0x13) = true := by decide

/-- `PUSH STS` (R160). -/
theorem test_push_status :
    gives (exec (.stackControl false false false 2) (start id fun c => { c with mstat := 8, imask := 5, astat := 3 }))
      (fun t => t.cpu.statStk.top == ⟨8, 5, 3⟩ && t.cpu.statStk.sp == 1 && t.cpu.sstat == 0x45) = true := by decide

/-- `CALL 0x0200` at PM:0x0010 pushes 0x0011 (R285). -/
theorem test_step_call :
    gives (step ((start id fun c => { c with pc := 0x0010 }).withFetchWord 24 0x1C200F))
      (fun t => t.cpu.pc == 0x0200 && t.cpu.pcTop == 0x0011 && t.bus == [.fetch 0x0010]) = true := by decide

/-- A machine at the last instruction of a loop that starts at 0x0100 and goes on while `term` holds. -/
def inLoop (term : Cond) : State :=
  start id fun c => ((c.pcPush 0x0100).loopPush ⟨0x0105, term⟩).jumpTo 0x0105

/-- `DO … UNTIL CE` with CNTR = 1 ends (R292); UNTIL FOREVER goes round (R292). -/
theorem test_step_loop :
    gives (step (onCpu (fun c => { c with cntr := 1 }) (inLoop .notCe)))
      (fun t => t.cpu.pc == 0x0106 && t.cpu.sstat == 0x55) = true ∧
    gives (step (inLoop .always)) (fun t => t.cpu.pc == 0x0100 && t.cpu.sstat == 0x14) = true := by decide

/-- IRQ2 asserted with IMASK = 0xF and nesting: entry at PM:2, lines 0 to 2 masked, the callback called (R317, R321). -/
theorem test_interrupt_entry :
    let t := assertIrqLine 2 true (setIrqVectorCallback true (start id fun c => { c with imask := 0xF, icntl := 0x10 }))
    (t.cpu.pc == 2 && t.cpu.pcTop == 4 && t.cpu.imask == 8 && t.acks == [2]) = true := by decide

/-- A write of IMASK takes a pending interrupt at the end of its step; with no callback registered none is called (R316,
R321). -/
theorem test_imask_write_takes_a_pending_interrupt :
    gives (step ((start id fun c => { c with irqLine := 0x9 }).withFetchWord 24 0x3C00F3))
      (fun t => t.cpu.pc == 3 && t.cpu.pcTop == 5 && t.acks == [] && !t.evalReq) = true := by decide

/-- LMASK at both ends of rows of the table of 10_state.md R24. -/
theorem test_lmask :
    lmask 0 = 0x3FFF ∧ lmask 1 = 0x3FFF ∧ lmask 2 = 0x3FFE ∧ lmask 3 = 0x3FFC ∧ lmask 4 = 0x3FFC ∧ lmask 0x80 = 0x3F80 ∧
    lmask 0x81 = 0x3F00 ∧ lmask 0x1000 = 0x3000 ∧ lmask 0x1001 = 0x2000 ∧ lmask 0x2000 = 0x2000 ∧ lmask 0x2001 = 0 ∧
    lmask 0x3FFF = 0 := by decide

/-! ### A witness for the hypotheses of each statement -/

/-- StepRunsTheDecodedInstruction, DecodeOfEncodeIsTheInstruction, EveryWordMatchesExactlyOneRow: a well-formed instruction
that a word decodes to and whose row the word matches; reset meets the invariants that the statements about steps
assume, and a step from it goes on. -/
theorem witness_decoded_instruction :
    (decode (State.reset.pm.pmWord State.reset.cpu.pc)).wellFormed = true ∧
    decode (State.reset.pm.pmWord State.reset.cpu.pc) = .nop ∧
    Instr.wellFormed (.pmReadMac2to3 .primary .subRnd 3 7 15 3 3) = true ∧
    (0x507FFF : PWord) &&& (Instr.row (.pmReadMac2to3 .primary .subRnd 3 7 15 3 3)).mask =
      (Instr.row (.pmReadMac2to3 .primary .subRnd 3 7 15 3 3)).bits := by decide

/-- StepKeepsInv, StepKeepsWindowsInside, HostCallsKeepInv: a state that meets the invariants and steps to a next state, and
a snapshot that is accepted. -/
theorem witness_invariants :
    (State.reset.dm.wf dmBytes && State.reset.pm.wf pmBytes && State.reset.cpu.emptyBitsAgree && !State.reset.evalReq) = true ∧
    (∀ k : Fin 8, Cpu.reset.base[k].toNat + Cpu.reset.l[k].toNat ≤ 16384) ∧
    gives (step State.reset) (fun t => t.cpu.pc == 5) = true ∧
    gives (setState Cpu.reset State.reset) (fun t => t.cpu.pc == 4) = true := by decide

/-- LoopTestChoosesTheNextPc: an empty loop stack, a loop that ends elsewhere, one that goes on, one that ends. -/
theorem witness_loop_test :
    State.reset.cpu.loopStk.sp.val = 0 ∧
    (let c := (inLoop .always).cpu.jumpTo 0x0104; Delivers c.loopStk ⟨0x0105, .always⟩ ∧ (0x0105 : Addr) ≠ c.pc) ∧
    (let c := (inLoop .always).cpu; 0 < c.loopStk.sp.val ∧ Delivers c.loopStk ⟨0x0105, .always⟩ ∧ c.pc = 0x0105 ∧
      (evalCond .always c).1 = true) ∧
    (let c := (inLoop .eq).cpu; 0 < c.loopStk.sp.val ∧ Delivers c.loopStk ⟨0x0105, .eq⟩ ∧ c.pc = 0x0105 ∧
      (evalCond .eq c).1 = false) := by unfold Delivers; decide

/-- Every statement with a condition field (the ALU, MAC and shifter functions, jumps, calls, returns): the condition true
and false, for a flag and for the counter at its boundary. -/
theorem witness_conditions :
    (evalCond .always Cpu.reset).1 = true ∧ (evalCond .eq Cpu.reset).1 = false ∧
    (evalCond .notCe { Cpu.reset with cntr := 2 }).1 = true ∧ (evalCond .notCe { Cpu.reset with cntr := 1 }).1 = false := by
  decide

/-- AluArithmeticFunctions, SaturatedArIsTheNearestLimit, ConditionsCompareAfterSubtract: exact values at the limit of the
range, with AR_SAT and with AV not sticky. -/
theorem witness_alu_arithmetic :
    let c := (start (fun b => { b with ax0 := 0x7FFF, ay0 := 1 }) fun c => { c with mstat := 8 }).cpu
    aluExact .add (aluX 0 c).toInt (aluY 0 c).toInt c.carry = some 32768 ∧
    aluExact .add (aluX 0 c).toNat (aluY 0 c).toNat c.carry = some 32768 ∧ c.arSat = true ∧ c.avLatch = false := by decide

/-- AluLogicalFunctions: a result with the bits the function asks for. -/
theorem witness_alu_logical :
    let c := (start fun b => { b with ax0 := 0xFF00, ay0 := 0x0FF0 }).cpu
    ∀ j : Fin 16, aluLogicBit .and ((aluX 0 c).getLsbD j) ((aluY 0 c).getLsbD j) = some ((0x0F00 : Word).getLsbD j) := by
  decide

/-- MacFunctions, SaturateMr: function 0 and another; MV clear and set. -/
theorem witness_mac :
    MacFn.noOp = .noOp ∧ MacFn.addSS ≠ .noOp ∧ Cpu.reset.flag bitMV = false ∧
    Cpu.flag { Cpu.reset with astat := 0x40 } bitMV = true := by decide

/-- ConditionalShifts, ImmediateShifts: a function that writes SR, in both forms. -/
theorem witness_shifts : shiftWritesSr .orNormLo = true ∧ shiftHasImm .orAshiftLo = true := by decide

/-- ExpThenNormNormalizes: an operand that is not 0. -/
theorem witness_normalize : shX 0 (start fun b => { b with si := 0x0012 }).cpu ≠ 0 := by decide

/-- CounterCondition, CounterRunsOutAfterItsCount: the counter running on (0 among the values) and running out; counts 1 and
16384. -/
theorem witness_counter :
    Cpu.reset.cntr - 1 ≠ 0 ∧ ({ Cpu.reset with cntr := 1 } : Cpu).cntr - 1 = 0 ∧
    ({ Cpu.reset with cntr := 1 } : Cpu).cntr = BitVec.ofNat 14 1 ∧ Cpu.reset.cntr = BitVec.ofNat 14 16384 := by decide

/-- RegisterReads, RegisterWritingInstructions, HostRegisterAccess: the first invalid slots, the last valid ones, and the
first group and index out of range. -/
theorem witness_slots :
    regAt ⟨1, 12⟩ = none ∧ regAt ⟨2, 15⟩ = none ∧ regAt ⟨3, 8⟩ = none ∧ regAt ⟨1, 11⟩ = some (.l 3) ∧
    regAt ⟨3, 7⟩ = some .px ∧ regAt ⟨0, 15⟩ = some .sr1 ∧ hostSlot 4 0 = none ∧ hostSlot 0 16 = none ∧
    hostSlot 3 15 = some ⟨3, 15⟩ := by decide

/-- The clauses of RegWritten about one register (MR1, CNTR, MSTAT, I[k]) and about the others, each for a written slot. -/
theorem witness_registers_written :
    regAt ⟨0, 12⟩ = some .mr1 ∧ regAt ⟨3, 5⟩ = some .cntr ∧ regAt ⟨3, 1⟩ = some .mstat ∧ regAt ⟨1, 0⟩ = some (.i 0) ∧
    Reg.reaches .mr1 .mr2 = true ∧ Reg.reaches .mr1 .mr0 = false ∧ Reg.reaches .cntr .sstat = true ∧
    Reg.reaches .mstat .px = false := by decide

/-- ModeControl: each of the five fields is one of the list. -/
theorem witness_mode_fields :
    [(0 : BitVec 2), 1, 2, 3, 0][0]? = some 0 ∧ [(0 : BitVec 2), 1, 2, 3, 0][4]? = some 0 ∧
    [(0 : BitVec 2), 1, 2, 3, 0][3]? = some 3 := by decide

/-- A machine whose slot 1 has the window 0x100 to 0x107, with the index at its last address and the modifier at the
length. -/
def inWindow : Cpu :=
  { Cpu.reset with
    i := Cpu.reset.i.set 1 0x0107, l := Cpu.reset.l.set 1 8, base := Cpu.reset.base.set 1 0x0100, m := Cpu.reset.m.set 2 8 }

/-- IndexStaysInItsWindow, LengthZeroIsLinear, BitReversedAddress: an index in its window and a modifier of the length; a
length 0; a slot of DAG1 with BIT_REV, one of DAG2, and BIT_REV clear. -/
theorem witness_address_generators :
    (∀ k : Fin 8, inWindow.base[k].toNat + inWindow.l[k].toNat ≤ 16384) ∧ 0 < (inWindow.l[1]).toNat ∧
    (inWindow.base[1]).toNat ≤ (inWindow.i[1]).toNat ∧
    (inWindow.i[1]).toNat < (inWindow.base[1]).toNat + (inWindow.l[1]).toNat ∧
    (inWindow.m[2]).toInt ≤ (inWindow.l[1]).toNat ∧ -((inWindow.l[1]).toNat : Int) ≤ (inWindow.m[2]).toInt ∧
    inWindow.l[0] = 0 ∧ Cpu.bitRev { Cpu.reset with mstat := 2 } = true ∧ Cpu.reset.bitRev = false ∧
    (3 : Fin 8).val < 4 ∧ 4 ≤ (4 : Fin 8).val := by decide

/-- ReturnFromSubroutine, RtiUndoesInterruptEntry, SnapshotRoundTrip: room on both stacks with the EMPTY bits right, also
with one entry less than full; a snapshot other than the present state; and one whose EMPTY bits are
wrong. -/
theorem witness_stacks :
    Cpu.reset.pcStk.sp.val < 16 ∧ Cpu.reset.statStk.sp.val < 4 ∧ Cpu.reset.emptyBitsAgree = true ∧
    (let c : Cpu := { Cpu.reset with
      pcStk := { Cpu.reset.pcStk with sp := 15 }, statStk := { Cpu.reset.statStk with sp := 3 }, sstat := 0x44 }
     c.pcStk.sp.val < 16 ∧ c.statStk.sp.val < 4 ∧ c.emptyBitsAgree = true ∧ c.sstat ≠ Cpu.reset.sstat) ∧
    ({ Cpu.reset with sstat := 0 } : Cpu).emptyBitsAgree = false := by decide

/-- The clauses of Pushed about a stack with room and a full one, and StackControl's fields: each value of SPP. -/
theorem witness_push_clauses :
    Cpu.reset.pcStk.sp.val < 16 ∧ ({ Cpu.reset.pcStk with sp := 16 } : HwStack Addr 16).sp.val = 16 ∧
    (3 : BitVec 2) ≠ 2 ∧ (1 : BitVec 2) ≠ 2 ∧ (1 : BitVec 2) ≠ 3 := by decide

/-- HighestTakeableLineWins: a line takeable with none above it, and no line takeable. -/
theorem witness_takeable :
    let c := { Cpu.reset with imask := 0x7, irqLine := 0xF }
    (c.takeable 2 = true ∧ c.takeable 3 = false) ∧ ∀ n : Fin 4, Cpu.reset.takeable n = false := by decide

/-- InterruptsOnlyAtEvaluationPoints: a step that takes an interrupt, and one that takes none. -/
theorem witness_interrupt_in_a_step :
    gives (step ((start id fun c => { c with irqLine := 0x9 }).withFetchWord 24 0x3C00F3)) (fun t => t.cpu.pc == 3) = true ∧
    gives (step State.reset) (fun t => t.cpu.pc == 5) = true := by
  decide

/-- LineAssertion: the last line there is and the first there is not. -/
theorem witness_lines : (3 : Nat) < 4 ∧ (4 : Nat) ≤ 4 := by decide

/-- OtherBankAndInterruptLinesAreNeverChanged, OnlyStoresChangeMemory: an instruction that completes, in either bank, and
that stores nothing; one that stores to each memory. -/
theorem witness_completed_instructions :
    gives (exec .nop State.reset) (fun t => !t.cpu.mstat.getLsbD 0) = true ∧
    gives (exec .nop (start id fun c => { c with mstat := 1 })) (fun t => t.cpu.mstat.getLsbD 0) = true ∧
    storesDm .nop = false ∧ storesPm .nop = false ∧ storesDm (.storeDirect 0 ⟨0, 0⟩) = true ∧
    storesPm (.pmWrite .primary 0 0 0 0 0) = true := by decide

/-- RunsAddUp: a run of one cycle and one of none. -/
theorem witness_runs :
    (0 : Int) ≤ 1 ∧ (0 : Int) ≤ 0 ∧ gives (execute 1 State.reset).1 (fun t => t.cpu.pc == 5) = true ∧
    (execute 1 State.reset).2 = 1 ∧ (execute (-1) State.reset).2 = 0 := by decide

end Sys2Proof.Tests
end

/-! # What an instruction is made of

Every instruction is a chain of a few elementary actions: a computation, an access, a push or pop, a register write.
`exec_performs` goes through the instructions once; what every instruction keeps is then proved action by action.
-/
section
namespace Sys2Proof.Machine

/-! ### Computations -/

/-- A computation writes the live bank and ASTAT: every other field, one by one, is as it was (10_state.md R22). -/
theorem onlyCompute_iff (c d : Cpu) : OnlyCompute c d ↔
    d.px = c.px ∧ d.i = c.i ∧ d.m = c.m ∧ d.l = c.l ∧ d.base = c.base ∧ d.pc = c.pc ∧ d.cntr = c.cntr ∧
    d.mstat = c.mstat ∧ d.sstat = c.sstat ∧ d.imask = c.imask ∧ d.icntl = c.icntl ∧ d.irqLine = c.irqLine ∧
    d.irqLatch = c.irqLatch ∧ d.pcStk = c.pcStk ∧ d.cntrStk = c.cntrStk ∧ d.statStk = c.statStk ∧
    d.loopStk = c.loopStk ∧ d.shadow = c.shadow := by
  have parts : OnlyCompute c d ↔
      d = { c with bank0 := d.bank0, bank1 := d.bank1, astat := d.astat } ∧ d.shadow = c.shadow :=
    ⟨fun h => ⟨h.rest, h.shadow⟩, fun ⟨rest, shadow⟩ => ⟨rest, shadow⟩⟩
  rw [parts]
  cases c; cases d
  simp only [Cpu.mk.injEq, true_and, and_assoc]

section Computations
variable (c : Cpu)

theorem onlyCompute_aluPart (z : Dest) (fn : AluFn) (yop : BitVec 2) (xop : BitVec 3) :
    OnlyCompute c (aluPart z fn yop xop c) := by simp [onlyCompute_iff]

theorem onlyCompute_macPart (z : Dest) (fn : MacFn) (yop : BitVec 2) (xop : BitVec 3) :
    OnlyCompute c (macPart z fn yop xop c) := by simp [onlyCompute_iff]

theorem onlyCompute_computePart (z : Dest) (amf : Amf) (yop : BitVec 2) (xop : BitVec 3) :
    OnlyCompute c (computePart z amf yop xop c) := by
  cases amf with
  | alu fn => exact onlyCompute_aluPart c z fn yop xop
  | mac fn => exact onlyCompute_macPart c z fn yop xop

theorem onlyCompute_shiftPart (sf : ShFn) (xop : BitVec 3) (sc : Int) : OnlyCompute c (shiftPart sf xop sc c) := by
  simp [onlyCompute_iff]

theorem onlyCompute_shiftBySe (sf : ShFn) (xop : BitVec 3) : OnlyCompute c (shiftBySe sf xop c) :=
  onlyCompute_shiftPart c sf xop _

theorem onlyCompute_divideSign (yop : BitVec 2) (xop : BitVec 3) : OnlyCompute c (divideSign yop xop c) := by
  simp [onlyCompute_iff]

theorem onlyCompute_divideStep (xop : BitVec 3) : OnlyCompute c (divideStep xop c) := by simp [onlyCompute_iff]

theorem onlyCompute_saturateMr : OnlyCompute c (saturateMr c) := by simp [onlyCompute_iff]

end Computations

/-! ### The actions -/

/-- The elementary actions that instruction `i` is made of, and the loop test before it. A store and a request for an
interrupt evaluation are there only for an instruction that makes one (70_reset_and_hazards.md R347;
60_exceptions.md R316). -/
inductive Action (i : Instr) : State → State → Prop
  | compute (f : Cpu → Cpu) (s : State) (only : OnlyCompute s.cpu (f s.cpu)) : Action i s (onCpu f s)
  | jump (a : Addr) (s : State) : Action i s (onCpu (Cpu.jumpTo a) s)
  | setCntr (v : Addr) (s : State) : Action i s (onCpu (fun c => { c with cntr := v }) s)
  | setMode (v : BitVec 5) (s : State) : Action i s (onCpu (Cpu.setMstat v) s)
  | setPx (v : Byte) (s : State) : Action i s (onCpu (fun c => { c with px := v }) s)
  | moveIndex (k m : Fin 8) (s : State) : Action i s (onCpu (Cpu.dagUpdate k m) s)
  | pcPush (v : Addr) (s : State) : Action i s (onCpu (Cpu.pcPush v) s)
  | pcPop (s : State) : Action i s (onCpu Cpu.pcPop s)
  | cntrPop (s : State) : Action i s (onCpu Cpu.cntrPop s)
  | statPush (s : State) : Action i s (onCpu Cpu.statPush s)
  | statPop (s : State) (asks : canEvaluate i = true) : Action i s (statPop s)
  | loopPush (e : LoopEntry) (s : State) : Action i s (onCpu (Cpu.loopPush e) s)
  | loopPop (s : State) : Action i s (onCpu Cpu.loopPop s)
  | regWrite (slot : Slot) (v : Word) (s : State) (asks : controlsInterrupts slot = true → canEvaluate i = true) :
      Action i s (regWrite slot v s)
  | dmRead (a : Addr) (s : State) : Action i s (dmRead a s).2
  | pmRead (a : Addr) (s : State) : Action i s (pmRead a s).2
  | dmWrite (a : Addr) (v : Word) (s : State) (stores : storesDm i = true) : Action i s (dmWrite a v s)
  | pmWrite (a : Addr) (v : PWord) (s : State) (stores : storesPm i = true) : Action i s (pmWrite a v s)

/-- A chain of elementary actions of instruction `i` leads from one state to the other. -/
abbrev Performs (i : Instr) : State → State → Prop := Relation.ReflTransGen (Action i)

/-- What every action of an instruction keeps, a chain of them keeps. -/
theorem Performs.keeps {i : Instr} {P : State → Prop} (each : ∀ {s t}, Action i s t → P s → P t) {s t : State}
    (h : Performs i s t) (hs : P s) : P t := by
  induction h with
  | refl => exact hs
  | tail _ last ih => exact each last ih

section Shared
variable {i : Instr} (s : State)

/-! ### The shared operations as chains of actions -/

/-- The counter condition counts down and may pop the counter stack; no other condition acts (47_program_flow.md R281,
R282). -/
theorem performs_evalCond (cond : Cond) : Performs i s { s with cpu := (evalCond cond s.cpu).2 } := by
  by_cases h : cond = .notCe
  · subst h
    rw [evalCond_counter]
    split
    · exact (Relation.ReflTransGen.single (.setCntr _ s)).tail (.cntrPop _)
    · exact .single (.setCntr _ s)
  · rw [evalCond_flag cond s.cpu h]

/-- Conditional execution performs what the condition and the action under it perform (47_program_flow.md R288). -/
theorem performs_whenCond (cond : Cond) {act : State → State} (h : ∀ u, Performs i u (act u)) :
    Performs i s (whenCond cond act s) := by
  cases hc : (evalCond cond s.cpu).1 with
  | true => rw [whenCond_true act hc]; exact (performs_evalCond s cond).trans (h _)
  | false => rw [whenCond_false act hc]; exact performs_evalCond s cond

/-- A computation under a condition (43_alu.md R189; 44_mac.md R220; 45_shifter.md R248). -/
theorem performs_computeWhen (cond : Cond) {f : Cpu → Cpu} (only : ∀ c, OnlyCompute c (f c)) :
    Performs i s (whenCond cond (onCpu f) s) :=
  performs_whenCond s cond fun u => .single (.compute f u (only _))

/-- A call pushes PC and jumps (47_program_flow.md R285). -/
theorem performs_call (a : Addr) : Performs i s (onCpu (Cpu.callTo a) s) :=
  (Relation.ReflTransGen.single (.pcPush s.cpu.pc s)).tail (.jump a _)

/-- A return pops PC and jumps to what it delivers (47_program_flow.md R289). -/
theorem performs_return : Performs i s (onCpu Cpu.pcReturn s) :=
  (Relation.ReflTransGen.single (.pcPop s)).tail (.jump s.cpu.pcTop _)

/-- A return from an interrupt pops the status stack after it (47_program_flow.md R290). -/
theorem performs_returnFromInterrupt (asks : canEvaluate i = true) : Performs i s (returnFromInterrupt s) :=
  (performs_return s).tail (.statPop _ asks)

/-- A data register is none of the registers that control interrupts (30_encoding.md R107). -/
theorem controlsInterrupts_dregSlot (dreg : BitVec 4) : controlsInterrupts (dregSlot dreg) = false := by
  revert dreg; decide

/-- The write of a data register asks for no evaluation, so every instruction may make it (30_encoding.md R107). -/
theorem Action.writeDreg (dreg : BitVec 4) (v : Word) : Action i s (Machine.regWrite (dregSlot dreg) v s) :=
  .regWrite _ v s fun h => absurd h (by simp [controlsInterrupts_dregSlot])

/-- Accesses through a generator: the access, then the index moves (41_dag_memory.md R142). -/
theorem performs_dmReadDag (k m : Fin 8) : Performs i s (dmReadDag k m s).2 :=
  (Relation.ReflTransGen.single (.dmRead (s.cpu.dmAddress k) s)).tail (.moveIndex k m _)

/-- A read of program memory leaves the tag in PX before the index moves (41_dag_memory.md R144). -/
theorem performs_pmReadDag (k m : Fin 8) : Performs i s (pmReadDag k m s).2 :=
  ((Relation.ReflTransGen.single (.pmRead (s.cpu.pmAddress k) s)).tail (.setPx _ _)).tail (.moveIndex k m _)

@[inherit_doc performs_dmReadDag] theorem performs_dmWriteDag (stores : storesDm i = true) (k m : Fin 8) (v : Word) :
    Performs i s (dmWriteDag k m v s) :=
  (Relation.ReflTransGen.single (.dmWrite (s.cpu.dmAddress k) v s stores)).tail (.moveIndex k m _)

@[inherit_doc performs_dmReadDag] theorem performs_pmWriteDag (stores : storesPm i = true) (k m : Fin 8) (v : Word) :
    Performs i s (pmWriteDag k m v s) :=
  (Relation.ReflTransGen.single (.pmWrite (s.cpu.pmAddress k) _ s stores)).tail (.moveIndex k m _)

/-! ### The multifunction instructions (46_multifunction.md R260 to R269) -/

section Part
variable {part : Cpu → Cpu} (only : ∀ c, OnlyCompute c (part c))
include only

theorem performs_part : Performs i s (onCpu part s) := .single (.compute part s (only _))

theorem performs_withMove (ddreg sdreg : BitVec 4) : Performs i s (withMove part ddreg sdreg s) :=
  (performs_part s only).tail (.writeDreg _ ddreg _)

theorem performs_withDmRead (k m : Fin 8) (dreg : BitVec 4) : Performs i s (withDmRead part k m dreg s) :=
  ((performs_part s only).trans (performs_dmReadDag _ k m)).tail (.writeDreg _ dreg _)

theorem performs_withPmRead (k m : Fin 8) (dreg : BitVec 4) : Performs i s (withPmRead part k m dreg s) :=
  ((performs_part s only).trans (performs_pmReadDag _ k m)).tail (.writeDreg _ dreg _)

theorem performs_withDmWrite (stores : storesDm i = true) (k m : Fin 8) (dreg : BitVec 4) :
    Performs i s (withDmWrite part k m dreg s) :=
  (performs_part s only).trans (performs_dmWriteDag _ stores k m _)

theorem performs_withPmWrite (stores : storesPm i = true) (k m : Fin 8) (dreg : BitVec 4) :
    Performs i s (withPmWrite part k m dreg s) :=
  (performs_part s only).trans (performs_pmWriteDag _ stores k m _)

theorem performs_withDualRead (dd pd : BitVec 2) (dmi dmm pmi pmm : Fin 8) :
    Performs i s (withDualRead part dd pd dmi dmm pmi pmm s) :=
  ((((performs_part s only).trans (performs_dmReadDag _ dmi dmm)).trans (performs_pmReadDag _ pmi pmm)).tail
    (.writeDreg _ _ _)).tail (.writeDreg _ _ _)

end Part

/-! ### Stack control, and the loop test -/

theorem performs_onlyIf (b : Bool) {act : State → State} (h : Action i s (act s)) : Performs i s (onlyIf b act s) := by
  cases b with
  | true => exact .single h
  | false => exact .refl

/-- SPP chooses a pop only as the value that is an evaluation point (42_stack_control.md R160). -/
theorem performs_statusStackAction (spp : BitVec 2) (asks : spp = 3 → canEvaluate i = true) :
    Performs i s (statusStackAction spp s) := by
  have both : ∀ b : BitVec 2, b.getLsbD 1 = true → b.getLsbD 0 = true → b = 3 := by decide
  unfold statusStackAction
  split
  next asked =>
    split
    next pops => exact .single (.statPop s (asks (both spp asked pops)))
    next => exact .single (.statPush s)
  next => exact .refl

/-- The loop test evaluates the loop's condition and then jumps back, or closes the loop (47_program_flow.md R280,
R292). -/
theorem performs_advance (a : Addr) : Performs i s (onCpu (Cpu.advance a) s) := by
  unfold onCpu Cpu.advance
  split
  next e _ =>
    dsimp only
    split
    · exact (performs_evalCond s e.term).tail (.jump _ _)
    · exact (((performs_evalCond s e.term).tail (.loopPop _)).tail (.pcPop _)).tail (.jump (a + 1) _)
  next => exact .single (.jump (a + 1) s)

end Shared

/-- Every instruction completes, by a chain of its elementary actions (60_exceptions.md R310; 47_program_flow.md
R280). -/
theorem exec_performs (i : Instr) (s : State) : ∃ t, exec i s = .next t ∧ Performs i s t := by
  cases i with
  | nop | reserved01 | reserved02 | reserved03 | reserved08 | shiftImmReserved => exact ⟨_, rfl, .refl⟩
  | stackControl pp lp cp spp =>
    refine ⟨_, rfl, .trans (.trans (.trans (performs_onlyIf s pp (.pcPop s)) (performs_onlyIf _ lp (.loopPop _)))
      (performs_onlyIf _ cp (.cntrPop _))) (performs_statusStackAction _ spp fun h => ?_)⟩
    simp [canEvaluate, h]
  | satMr => exact ⟨_, rfl, performs_part s onlyCompute_saturateMr⟩
  | divs yop xop => exact ⟨_, rfl, performs_part s fun c => onlyCompute_divideSign c yop xop⟩
  | divq xop => exact ⟨_, rfl, performs_part s fun c => onlyCompute_divideStep c xop⟩
  | modify g k m => exact ⟨_, rfl, .single (.moveIndex _ _ s)⟩
  | jump addr cond => exact ⟨_, rfl, performs_whenCond s cond fun u => .single (.jump addr u)⟩
  | call addr cond => exact ⟨_, rfl, performs_whenCond s cond fun u => performs_call u addr⟩
  | jumpInd k cond => exact ⟨_, rfl, performs_whenCond s cond fun u => .single (.jump u.cpu.i[dagSlot .dag2 k] u)⟩
  | callInd k cond => exact ⟨_, rfl, performs_whenCond s cond fun u => performs_call u u.cpu.i[dagSlot .dag2 k]⟩
  | rts cond => exact ⟨_, rfl, performs_whenCond s cond performs_return⟩
  | rti cond => exact ⟨_, rfl, performs_whenCond s cond fun u => performs_returnFromInterrupt u rfl⟩
  | doUntil addr term => exact ⟨_, rfl, (Relation.ReflTransGen.single (.loopPush ⟨addr, term⟩ s)).tail (.pcPush _ _)⟩
  | modeControl ti mm sat ol br sr gm => exact ⟨_, rfl, .single (.setMode _ s)⟩
  | moveReg dst src => exact ⟨_, rfl, .single (.regWrite dst _ s id)⟩
  | loadImm14 dst data => exact ⟨_, rfl, .single (.regWrite dst _ s id)⟩
  | loadImm16 data dreg => exact ⟨_, rfl, .single (.writeDreg s dreg data)⟩
  | loadDirect dst addr => exact ⟨_, rfl, (Relation.ReflTransGen.single (.dmRead addr s)).tail (.regWrite dst _ _ id)⟩
  | storeDirect addr src => exact ⟨_, rfl, .single (.dmWrite addr _ s rfl)⟩
  | storeImm g data k m => exact ⟨_, rfl, performs_dmWriteDag s rfl _ _ data⟩
  | arPassY | afPassY | arIncY | afIncY | arAddC | afAddC | arAdd | afAdd | arNotY | afNotY | arNegY | afNegY | arSubC
  | afSubC | arSub | afSub | arDecY | afDecY | arRsub | afRsub | arRsubC | afRsubC | arNotX | afNotX | arAnd | afAnd
  | arOr | afOr | arXor | afXor | arAbsX | afAbsX =>
    exact ⟨_, rfl, performs_computeWhen s _ fun c => onlyCompute_aluPart c _ _ _ _⟩
  | condNoCompute | mrMulRnd | mfMulRnd | mrAddRnd | mfAddRnd | mrSubRnd | mfSubRnd | mrMulSS | mfMulSS | mrMulSU
  | mfMulSU | mrMulUS | mfMulUS | mrMulUU | mfMulUU | mrAddSS | mfAddSS | mrAddSU | mfAddSU | mrAddUS | mfAddUS
  | mrAddUU | mfAddUU | mrSubSS | mfSubSS | mrSubSU | mfSubSU | mrSubUS | mfSubUS | mrSubUU | mfSubUU =>
    exact ⟨_, rfl, performs_computeWhen s _ fun c => onlyCompute_macPart c _ _ _ _⟩
  | lshiftHi | orLshiftHi | lshiftLo | orLshiftLo | ashiftHi | orAshiftHi | ashiftLo | orAshiftLo | normHi | orNormHi
  | normLo | orNormLo | expHi | expHix | expLo | expAdj =>
    exact ⟨_, rfl, performs_computeWhen s _ fun c => onlyCompute_shiftBySe c _ _⟩
  | lshiftHiImm | orLshiftHiImm | lshiftLoImm | orLshiftLoImm | ashiftHiImm | orAshiftHiImm | ashiftLoImm
  | orAshiftLoImm => exact ⟨_, rfl, performs_part s fun c => onlyCompute_shiftPart c _ _ _⟩
  | shiftMove => exact ⟨_, rfl, performs_withMove s (fun c => onlyCompute_shiftBySe c _ _) _ _⟩
  | shiftDmRead => exact ⟨_, rfl, performs_withDmRead s (fun c => onlyCompute_shiftBySe c _ _) _ _ _⟩
  | shiftDmWrite => exact ⟨_, rfl, performs_withDmWrite s (fun c => onlyCompute_shiftBySe c _ _) rfl _ _ _⟩
  | shiftPmRead => exact ⟨_, rfl, performs_withPmRead s (fun c => onlyCompute_shiftBySe c _ _) _ _ _⟩
  | shiftPmWrite => exact ⟨_, rfl, performs_withPmWrite s (fun c => onlyCompute_shiftBySe c _ _) rfl _ _ _⟩
  | computeMove => exact ⟨_, rfl, performs_withMove s (fun c => onlyCompute_computePart c _ _ _ _) _ _⟩
  | dmRead | dmReadAlu | dmReadMac8to15 | dmReadMac4to7 | dmReadMac2to3 | dmReadMac1 =>
    exact ⟨_, rfl, performs_withDmRead s (fun c => onlyCompute_computePart c _ _ _ _) _ _ _⟩
  | dmWrite | dmWriteAlu | dmWriteMac8to15 | dmWriteMac4to7 | dmWriteMac2to3 | dmWriteMac1 =>
    exact ⟨_, rfl, performs_withDmWrite s (fun c => onlyCompute_computePart c _ _ _ _) rfl _ _ _⟩
  | pmRead | pmReadAlu | pmReadMac8to15 | pmReadMac4to7 | pmReadMac2to3 | pmReadMac1 =>
    exact ⟨_, rfl, performs_withPmRead s (fun c => onlyCompute_computePart c _ _ _ _) _ _ _⟩
  | pmWrite | pmWriteAlu | pmWriteMac8to15 | pmWriteMac4to7 | pmWriteMac2to3 | pmWriteMac1 =>
    exact ⟨_, rfl, performs_withPmWrite s (fun c => onlyCompute_computePart c _ _ _ _) rfl _ _ _⟩
  | dualRead => exact ⟨_, rfl, performs_withDualRead s (fun c => onlyCompute_computePart c _ _ _ _) _ _ _ _ _ _⟩

/-- The fetch reads the word at PM:PC (47_program_flow.md R280). -/
@[simp] theorem fetchWord_word (s : State) : (fetchWord s).1 = s.pm.pmWord s.cpu.pc := rfl

/-- A step fetches, makes the loop test and the instruction, all in one chain of actions, and retires
(47_program_flow.md R280). -/
theorem step_performs (s : State) :
    ∃ u, step s = .next (retire u) ∧ Performs (decode (s.pm.pmWord s.cpu.pc)) (fetchWord s).2 u := by
  obtain ⟨u, hexec, chain⟩ := exec_performs (decode (s.pm.pmWord s.cpu.pc)) (enterInstr s)
  refine ⟨u, ?_, (performs_advance _ s.cpu.pc).trans chain⟩
  simp only [step, fetchWord_word, hexec]

end Sys2Proof.Machine
end

/-! # The invariant, reset and the register map -/
section
namespace Sys2Proof.Machine

/-! ### Soundness between the parts of a step -/

/-- The invariant without its last clause: what holds also while an evaluation of interrupts is asked for. -/
structure State.Sound (s : State) : Prop where
  dmForm : s.dm.wf dmBytes = true
  pmForm : s.pm.wf pmBytes = true
  emptyBits : s.cpu.emptyBitsAgree = true

theorem State.inv_iff (s : State) : s.Inv ↔ s.Sound ∧ s.evalReq = false :=
  ⟨fun ⟨dm, pm, empty, evaluated⟩ => ⟨⟨dm, pm, empty⟩, evaluated⟩,
    fun ⟨⟨dm, pm, empty⟩, evaluated⟩ => ⟨dm, pm, empty, evaluated⟩⟩

/-- A write of SSTAT reaches the OVER bits alone (10_state.md R31). -/
theorem Cpu.emptyBitsAgree_sstatWrite {c : Cpu} (h : c.emptyBitsAgree = true) (v : Word) :
    ({ c with sstat := sstatWrite v c.sstat } : Cpu).emptyBitsAgree = true := by
  rw [Cpu.emptyBitsAgree_iff] at *
  simpa [sstatWrite] using h

theorem Cpu.emptyBitsAgree_withLive {c : Cpu} (h : c.emptyBitsAgree = true) (f : Bank → Bank) :
    (c.withLive f).emptyBitsAgree = true :=
  Cpu.emptyBitsAgree_of_eq h (c.withLive_sstat f) (c.withLive_pcStk f) (c.withLive_cntrStk f) (c.withLive_statStk f)
    (c.withLive_loopStk f)

/-- No register write makes an EMPTY bit wrong: CNTR pushes, SSTAT keeps its EMPTY bits, no other register has to do
with a stack (10_state.md R31, R38, R48). -/
theorem Cpu.emptyBitsAgree_writeReg {c : Cpu} (h : c.emptyBitsAgree = true) (r : Reg) (v : Word) :
    (writeReg r v c).emptyBitsAgree = true := by
  cases r with
  | cntr => exact Cpu.emptyBitsAgree_of_eq (Cpu.emptyBitsAgree_cntrPush h) rfl rfl rfl rfl rfl
  | sstat => exact Cpu.emptyBitsAgree_sstatWrite h v
  | i | m | l | astat | mstat | imask | icntl | px => exact Cpu.emptyBitsAgree_of_eq h rfl rfl rfl rfl rfl
  | ax0 | ax1 | mx0 | mx1 | ay0 | ay1 | my0 | my1 | si | se | ar | mr0 | mr1 | mr2 | sr0 | sr1 | sb =>
    exact Cpu.emptyBitsAgree_withLive h _

/-- Every elementary action keeps a state sound. -/
theorem State.Sound.action {i : Instr} {s t : State} (act : Action i s t) (h : s.Sound) : t.Sound := by
  obtain ⟨dm, pm, empty⟩ := h
  cases act with
  | compute f s only =>
    obtain ⟨-, -, -, -, -, -, -, -, sstat, -, -, -, -, pc, cntr, stat, loop, -⟩ := (onlyCompute_iff _ _).mp only
    exact ⟨dm, pm, Cpu.emptyBitsAgree_of_eq empty sstat pc cntr stat loop⟩
  | jump | setCntr | setMode | setPx | moveIndex => exact ⟨dm, pm, Cpu.emptyBitsAgree_of_eq empty rfl rfl rfl rfl rfl⟩
  | pcPush v => exact ⟨dm, pm, Cpu.emptyBitsAgree_pcPush v empty⟩
  | pcPop => exact ⟨dm, pm, Cpu.emptyBitsAgree_pcPop empty⟩
  | cntrPop => exact ⟨dm, pm, Cpu.emptyBitsAgree_cntrPop empty⟩
  | statPush => exact ⟨dm, pm, Cpu.emptyBitsAgree_statPush empty⟩
  | statPop => exact ⟨dm, pm, Cpu.emptyBitsAgree_statPop empty⟩
  | loopPush e => exact ⟨dm, pm, Cpu.emptyBitsAgree_loopPush e empty⟩
  | loopPop => exact ⟨dm, pm, Cpu.emptyBitsAgree_loopPop empty⟩
  | regWrite slot v =>
    cases hr : regAt slot with
    | some r => rw [regWrite_some hr]; exact ⟨dm, pm, Cpu.emptyBitsAgree_writeReg empty r v⟩
    | none => rw [regWrite_none hr]; exact ⟨dm, pm, empty⟩
  | dmRead | pmRead => exact ⟨dm, pm, empty⟩
  | dmWrite a v => exact ⟨Memory.wf_setDmWord a v dm, pm, empty⟩
  | pmWrite a v => exact ⟨dm, Memory.wf_setPmWord a v pm, empty⟩

/-- Taking an interrupt keeps a state sound: it pushes on two stacks (60_exceptions.md R317). -/
theorem State.Sound.takeInterrupt {s : State} (h : s.Sound) (n : Fin Config.numIrq) : (takeInterrupt n s).Sound := by
  refine ⟨h.dmForm, h.pmForm, ?_⟩
  have pushed : (({ s.cpu with irqLatch := setBit s.cpu.irqLatch n false } : Cpu).pcPush s.cpu.pc).statPush.emptyBitsAgree :=
    Cpu.emptyBitsAgree_statPush (Cpu.emptyBitsAgree_pcPush _ h.emptyBits)
  exact Cpu.emptyBitsAgree_of_eq pushed rfl rfl rfl rfl rfl

/-- An evaluation of interrupts takes one or changes nothing (60_exceptions.md R315). -/
theorem State.Sound.evaluateInterrupts {s : State} (h : s.Sound) : (evaluateInterrupts s).Sound := by
  rcases evaluateInterrupts_cases s with ⟨n, -, -, taken⟩ | ⟨-, kept⟩
  · rw [taken]; exact h.takeInterrupt n
  · rwa [kept]

/-- The end of a step evaluates what was asked for, and leaves no request over (47_program_flow.md R280). -/
theorem State.Sound.inv_retire {s : State} (h : s.Sound) : (retire s).Inv := by
  rw [State.inv_iff]
  rcases retire_cases s with ⟨none, kept⟩ | ⟨-, evaluated⟩
  · rw [kept]; exact ⟨h, none⟩
  · rw [evaluated]
    have cleared : ({ s with evalReq := false } : State).Sound := ⟨h.dmForm, h.pmForm, h.emptyBits⟩
    exact ⟨cleared.evaluateInterrupts, by simp⟩

/-- Settles O7: the fetch begins a sound state, every action of the step keeps it, and the retirement leaves no request
over. -/
theorem stepKeepsInv : Obligations.StepKeepsInv := by
  unfold Obligations.StepKeepsInv
  intro s t hs hstep
  obtain ⟨u, retired, chain⟩ := step_performs s
  obtain rfl : retire u = t := Host.Outcome.next.inj (retired.symm.trans hstep)
  have fetched : (fetchWord s).2.Sound := ⟨hs.dmForm, hs.pmForm, hs.emptyBits⟩
  exact (chain.keeps State.Sound.action fetched).inv_retire

/-! ### Reset -/

/-- BASE after reset is that of index 0 and length 0, which round down to 0 (10_state.md R24; log 1). -/
theorem baseOf_zero : BaseOf 0 0 0 := ⟨0, by decide, fun m hm => absurd hm (Nat.not_lt_zero m), by decide⟩

/-- Settles O8: SSTAT is 0x55 and every stack is empty; every window is the empty one at 0. -/
theorem resetMeetsInv : Obligations.ResetMeetsInv := by
  unfold Obligations.ResetMeetsInv
  have empty : State.reset.cpu.emptyBitsAgree = true := by decide
  have windows : State.reset.cpu.WindowsFit := by unfold Cpu.WindowsFit; decide
  exact ⟨⟨State.reset_dm_wf, State.reset_pm_wf, empty, rfl⟩, windows⟩

/-- Settles O11: the table of R58 is how State.reset is written, and BASE is that of index 0 and length 0. -/
theorem resetValues : Obligations.ResetValues := by
  unfold Obligations.ResetValues
  refine ⟨rfl, rfl, rfl, rfl, rfl, rfl, rfl, rfl, rfl, rfl, rfl, rfl, fun k => ?_⟩
  have zeros : State.reset.cpu.i[k] = 0 ∧ State.reset.cpu.l[k] = 0 ∧ State.reset.cpu.base[k] = 0 := by
    simp [State.reset, Cpu.reset]
  obtain ⟨hi, hl, hb⟩ := zeros
  rw [hi, hl, hb]
  exact baseOf_zero

/-! ### The register map -/

/-- A slot reads as its register, an invalid slot as 0 (10_state.md R36, R39). -/
theorem regRead_eq (slot : Slot) (c : Cpu) : regRead slot c = ((regAt slot).map fun r => readReg r c).getD 0 := by
  unfold regRead
  cases regAt slot <;> rfl

/-- Settles O31: the 64 slots by going through them; a read is the register itself, or widened by sign, which keeps its
signed value, or by zero, which keeps its unsigned one. -/
theorem registerReads : Obligations.RegisterReads := by
  unfold Obligations.RegisterReads
  have signed {w : Nat} (hw : w ≤ 16) (v : BitVec w) : (v.signExtend 16).toInt = v.toInt :=
    BitVec.toInt_signExtend_of_le hw
  have unsigned {w : Nat} (hw : w ≤ 16) (v : BitVec w) : (v.setWidth 16).toNat = v.toNat :=
    BitVec.toNat_setWidth_of_le hw
  refine ⟨by decide, by decide, by decide, by decide, fun c => ⟨fun slot => regRead_eq slot c, ?_⟩⟩
  exact ⟨signed (by decide) _, signed (by decide) _, signed (by decide) _, fun k => signed (by decide) _,
    fun k => ⟨unsigned (by decide) _, unsigned (by decide) _⟩, unsigned (by decide) _, unsigned (by decide) _,
    unsigned (by decide) _, unsigned (by decide) _, unsigned (by decide) _, unsigned (by decide) _,
    unsigned (by decide) _, rfl⟩

end Sys2Proof.Machine
end

/-! # The opcode table

`Format` lists the formats of 30_encoding.md R102 by the bits that select them. `Format.decode_eq` and `format_decode`
say that the decoder answers by that list and that the list leaves no word out; what is asked of the table is then
proved format by format.
-/
section
namespace Sys2Proof

/-! ### Fields of a word -/

/-- A window inside a known one is known. -/
theorem fieldAt_within {op : PWord} {lo len : Nat} {v : BitVec len} (h : fieldAt op lo len = v) (lo' len' : Nat)
    (inside : lo ≤ lo' ∧ lo' + len' ≤ lo + len) : fieldAt op lo' len' = v.extractLsb' (lo' - lo) len' := by
  subst h
  apply BitVec.eq_of_getLsbD_eq
  intro i hi
  simp only [fieldAt, BitVec.getLsbD_extractLsb']
  simp [hi, show lo' - lo + i < len by omega, show lo + (lo' - lo + i) = lo' + i by omega]

theorem fieldAt_and (a b : PWord) (lo len : Nat) :
    fieldAt (a &&& b) lo len = fieldAt a lo len &&& fieldAt b lo len := by
  simp [fieldAt, BitVec.extractLsb'_and]

@[simp] theorem fieldAt_ofNat (n lo len : Nat) :
    fieldAt (BitVec.ofNat 24 n) lo len = BitVec.ofNat len (n % 2 ^ 24 / 2 ^ lo) := by
  apply BitVec.eq_of_toNat_eq
  simp [fieldAt, BitVec.extractLsb'_toNat, Nat.shiftRight_eq_div_pow]

/-- A field read apart from where another was put is zero. -/
@[simp] theorem fieldAt_putAt_apart {n : Nat} (lo : Nat) (v : BitVec n) (lo' len : Nat)
    (h : lo' + len ≤ lo ∨ lo + n ≤ lo') : fieldAt (putAt lo v) lo' len = 0 := by
  rcases h with below | above
  · exact fieldAt_putAt_below lo v lo' len below
  · exact fieldAt_putAt_above lo v lo' len above

/-- What a mask made of one field leaves of a word: that field, under the same mask. -/
theorem and_putAt (op : PWord) {len : Nat} (lo : Nat) (k : BitVec len) :
    op &&& putAt lo k = putAt lo (fieldAt op lo len &&& k) := by
  apply BitVec.eq_of_getLsbD_eq
  intro i hi
  simp only [fieldAt, putAt, BitVec.getLsbD_and, BitVec.getLsbD_shiftLeft, BitVec.getLsbD_setWidth,
    BitVec.getLsbD_extractLsb']
  by_cases below : i < lo
  · simp [below]
  · by_cases above : i - lo < len
    · simp [below, above, hi, show lo + (i - lo) = i by omega, show i - lo < 24 by omega]
    · simp [BitVec.getLsbD_of_ge k (i - lo) (by omega)]

/-! The enumerated fields have an element for every code. -/

@[simp] theorem Amf.bits_ofBits : ∀ c : BitVec 5, (Amf.ofBits c).bits = c := by decide
@[simp] theorem ShFn.bits_ofBits : ∀ c : BitVec 4, (ShFn.ofBits c).bits = c := by decide
@[simp] theorem Dest.bits_ofBits : ∀ c : BitVec 1, (Dest.ofBits c).bits = c := by decide

section Layout
variable (op : PWord) (amf : Amf) (sf : ShFn) (yop : BitVec 2) (xop : BitVec 3) (i m : BitVec 2)

@[simp] theorem fieldI_eq : fieldI op = fieldAt op 2 2 := rfl
@[simp] theorem fieldM_eq : fieldM op = fieldAt op 0 2 := rfl
@[simp] theorem fieldXop_eq : fieldXop op = fieldAt op 8 3 := rfl
@[simp] theorem fieldYop_eq : fieldYop op = fieldAt op 11 2 := rfl
@[simp] theorem fieldDreg_eq : fieldDreg op = fieldAt op 4 4 := rfl
@[simp] theorem fieldCond_eq : fieldCond op = Cond.ofBits (fieldAt op 0 4) := rfl
@[simp] theorem fieldZ_eq : fieldZ op = Dest.ofBits (fieldAt op 18 1) := rfl
@[simp] theorem fieldAmf_eq : fieldAmf op = Amf.ofBits (fieldAt op 13 5) := rfl
@[simp] theorem fieldSf_eq : fieldSf op = ShFn.ofBits (fieldAt op 11 4) := rfl
@[simp] theorem fieldG_eq : fieldG op = Gen.ofBits (fieldAt op 20 1) := rfl
@[simp] theorem putIM_eq : putIM i m = putAt 2 i ||| putAt 0 m := rfl
@[simp] theorem putShift_eq : putShift sf xop = putAt 11 sf.bits ||| putAt 8 xop := rfl
@[simp] theorem putCompute_eq : putCompute amf yop xop = putAt 13 amf.bits ||| putAt 11 yop ||| putAt 8 xop := rfl

end Layout

/-! ### Rows -/

/-- The word has the fixed bits of the row. -/
def TableRow.Matches (r : TableRow) (op : PWord) : Prop := op &&& r.mask = r.bits

/-- The row that fixes one field and nothing else. -/
def TableRow.ofField {n : Nat} (lo : Nat) (v : BitVec n) : TableRow := ⟨putAt lo (BitVec.allOnes n), putAt lo v⟩

/-- The row that fixes, besides what `r` fixes, the bits `k` of a field. -/
def TableRow.withField {n : Nat} (r : TableRow) (lo : Nat) (k v : BitVec n) : TableRow :=
  ⟨r.mask ||| putAt lo k, r.bits ||| putAt lo (v &&& k)⟩

theorem TableRow.ofField_matches {op : PWord} {lo n : Nat} {v : BitVec n} (h : fieldAt op lo n = v) :
    (TableRow.ofField lo v).Matches op := by
  simp [Matches, ofField, and_putAt, h]

theorem TableRow.Matches.withField {r : TableRow} {op : PWord} (head : r.Matches op) {lo n : Nat} (k : BitVec n)
    {v : BitVec n} (h : fieldAt op lo n = v) : (r.withField lo k v).Matches op := by
  unfold Matches at head
  simp only [Matches, TableRow.withField, BitVec.and_or_distrib_left, head, and_putAt, h]

/-- The words have the same bits where the row fixes them. -/
def TableRow.Agree (r : TableRow) (op op' : PWord) : Prop := op &&& r.mask = op' &&& r.mask

theorem TableRow.Matches.agree {r : TableRow} {op op' : PWord} (h : r.Matches op) (h' : r.Matches op') :
    r.Agree op op' := h.trans h'.symm

section Agree
variable {op op' : PWord} {r : TableRow} {lo n : Nat} {k v : BitVec n}

theorem TableRow.Agree.fieldAt_and (agree : r.Agree op op') (lo len : Nat) :
    fieldAt op lo len &&& fieldAt r.mask lo len = fieldAt op' lo len &&& fieldAt r.mask lo len := by
  rw [← Sys2Proof.fieldAt_and, show op &&& r.mask = op' &&& r.mask from agree, Sys2Proof.fieldAt_and]

/-- The field of a row that fixes one field. -/
theorem lead_of_agree (lead : fieldAt op' lo n = v) (agree : (TableRow.ofField lo v).Agree op op')
    (inside : lo + n ≤ 24 := by decide) : fieldAt op lo n = v := by
  simpa [TableRow.ofField, inside, lead] using agree.fieldAt_and lo n

theorem TableRow.Agree.head (agree : (r.withField lo k v).Agree op op') : r.Agree op op' := by
  have restrict (w : PWord) : w &&& (r.withField lo k v).mask &&& r.mask = w &&& r.mask := by
    apply BitVec.eq_of_getLsbD_eq
    intro i hi
    simp only [TableRow.withField, BitVec.getLsbD_and, BitVec.getLsbD_or]
    cases w.getLsbD i <;> cases r.mask.getLsbD i <;> simp
  unfold TableRow.Agree at agree ⊢
  rw [← restrict op, agree, restrict op']

theorem TableRow.Agree.field (agree : (r.withField lo k v).Agree op op') (apart : fieldAt r.mask lo n = 0)
    (inside : lo + n ≤ 24 := by decide) : fieldAt op lo n &&& k = fieldAt op' lo n &&& k := by
  simpa [TableRow.withField, inside, apart] using agree.fieldAt_and lo n

/-- The field is the same in both words where the row fixes all of it. -/
theorem TableRow.Agree.wholeField (agree : (r.withField lo (BitVec.allOnes n) v).Agree op op')
    (apart : fieldAt r.mask lo n = 0) (inside : lo + n ≤ 24 := by decide) : fieldAt op lo n = fieldAt op' lo n := by
  simpa using agree.field apart inside

/-- Both fields of a row that fixes two. -/
theorem lead_dir_of_agree {lo' n' : Nat} {w : BitVec n'} (lead : fieldAt op' lo n = v)
    (dir : fieldAt op' lo' n' = w)
    (agree : ((TableRow.ofField lo v).withField lo' (BitVec.allOnes n') w).Agree op op')
    (apart : lo' + n' ≤ lo := by decide) (inside : lo + n ≤ 24 ∧ lo' + n' ≤ 24 := by decide) :
    fieldAt op lo n = v ∧ fieldAt op lo' n' = w :=
  ⟨lead_of_agree lead agree.head inside.1,
    (agree.wholeField (fieldAt_putAt_below _ _ _ _ apart) inside.2).trans dir⟩

end Agree

theorem TableRow.withField_congr {n : Nat} {r : TableRow} {lo : Nat} {k k' v v' : BitVec n} (hk : k = k')
    (hv : v &&& k' = v' &&& k') : r.withField lo k v = r.withField lo k' v' := by
  rw [hk, TableRow.withField, TableRow.withField, hv]

/-- The bits of SF that the row of an immediate shift fixes: SF[3] alone in the reserved row (45_shifter.md R249). -/
def ShFn.immMask : ShFn → BitVec 4
  | .lshiftHi | .orLshiftHi | .lshiftLo | .orLshiftLo | .ashiftHi | .orAshiftHi | .ashiftLo | .orAshiftLo => 0b1111
  | .normHi | .orNormHi | .normLo | .orNormLo | .expHi | .expHix | .expLo | .expAdj => 0b1000

/-- The bit Z counts in the rows of F_CCOND, but not in the row that computes nothing (44_mac.md R204, R220). -/
def Amf.zMask : Amf → BitVec 1
  | .mac .noOp => 0
  | .mac _ | .alu _ => 1

/-- The bits of AMF that the rows of F_CPM and F_CDM fix (46_multifunction.md R262 to R265). -/
def Amf.memMask : Amf → BitVec 5
  | .alu _ => 0b10000
  | .mac fn => if fn.in8to15 then 0b11000 else if fn.in4to7 then 0b11100 else if fn.in2to3 then 0b11110 else 0b11111

section RowEquations
variable (z : Dest) (g : Gen) (amf : Amf) (sf : ShFn) (yop : BitVec 2) (xop : BitVec 3) (dreg : BitVec 4)
variable (i m : BitVec 2) (cond : Cond) (n : BitVec 8)

theorem condShift_row :
    (condShift sf xop cond).row = (TableRow.ofField 16 (0x0E : BitVec 8)).withField 11 (BitVec.allOnes 4) sf.bits := by
  cases sf <;> rfl

theorem immShift_row :
    (immShift sf xop n).row = (TableRow.ofField 16 (0x0F : BitVec 8)).withField 11 sf.immMask sf.bits := by
  cases sf <;> rfl

theorem condCompute_row : (condCompute z amf yop xop cond).row =
    ((TableRow.ofField 19 (0b00100 : BitVec 5)).withField 13 (BitVec.allOnes 5) amf.bits).withField 18 amf.zMask
      z.bits := by
  cases amf with | alu fn | mac fn => cases z <;> cases fn <;> rfl

theorem computePmRead_row : (computePmRead z amf yop xop dreg i m).row =
    (TableRow.ofField 19 (0b01010 : BitVec 5)).withField 13 amf.memMask amf.bits := by
  cases amf with | alu fn | mac fn => cases fn <;> rfl

theorem computePmWrite_row : (computePmWrite z amf yop xop dreg i m).row =
    (TableRow.ofField 19 (0b01011 : BitVec 5)).withField 13 amf.memMask amf.bits := by
  cases amf with | alu fn | mac fn => cases fn <;> rfl

theorem computeDmRead_row : (computeDmRead g z amf yop xop dreg i m).row =
    ((TableRow.ofField 21 (0b011 : BitVec 3)).withField 19 (BitVec.allOnes 1) 0).withField 13 amf.memMask amf.bits := by
  cases amf with | alu fn | mac fn => cases fn <;> rfl

theorem computeDmWrite_row : (computeDmWrite g z amf yop xop dreg i m).row =
    ((TableRow.ofField 21 (0b011 : BitVec 3)).withField 19 (BitVec.allOnes 1) 1).withField 13 amf.memMask amf.bits := by
  cases amf with | alu fn | mac fn => cases fn <;> rfl

end RowEquations

/-- The rows of F_CPM and F_CDM tell functions apart by the bits they fix: a function with those bits has the same
row. -/
theorem Amf.memMask_unique : ∀ c d : BitVec 5, c &&& (ofBits d).memMask = d &&& (ofBits d).memMask →
    (ofBits c).memMask = (ofBits d).memMask := by decide

@[inherit_doc Amf.memMask_unique] theorem ShFn.immMask_unique : ∀ c d : BitVec 4,
    c &&& (ofBits d).immMask = d &&& (ofBits d).immMask → (ofBits c).immMask = (ofBits d).immMask := by decide

/-- Words that agree where a row of F_CPM or F_CDM fixes bits have functions of the same row. -/
theorem TableRow.Agree.memField {r : TableRow} {op op' : PWord}
    (agree : (r.withField 13 (fieldAmf op').memMask (fieldAmf op').bits).Agree op op')
    (apart : fieldAt r.mask 13 5 = 0) :
    r.withField 13 (fieldAmf op).memMask (fieldAmf op).bits =
      r.withField 13 (fieldAmf op').memMask (fieldAmf op').bits := by
  have amf := agree.field apart
  exact TableRow.withField_congr (Amf.memMask_unique _ _ amf) (by simpa using amf)

/-! ### Formats -/

/-- The formats of R102: the bits of the word that select one (R101, R111), and the instruction read from it. `lead` is
the word's leading bits, `dir` the one bit apart from them that tells two instructions with the same ones apart. -/
inductive Format (op : PWord) : Instr → Prop
  | dualRead (lead : fieldAt op 22 2 = 0b11) :
      Format op (.dualRead (fieldAt op 20 2) (fieldAt op 18 2) (fieldAmf op) (fieldYop op) (fieldXop op)
        (fieldAt op 6 2) (fieldAt op 4 2) (fieldAt op 2 2) (fieldAt op 0 2))
  | storeImm (lead : fieldAt op 21 3 = 0b101) :
      Format op (.storeImm (fieldG op) (fieldAt op 4 16) (fieldI op) (fieldM op))
  | storeDirect (lead : fieldAt op 20 4 = 0b1001) :
      Format op (.storeDirect (fieldAt op 4 14) ⟨fieldAt op 18 2, fieldAt op 0 4⟩)
  | loadDirect (lead : fieldAt op 20 4 = 0b1000) :
      Format op (.loadDirect ⟨fieldAt op 18 2, fieldAt op 0 4⟩ (fieldAt op 4 14))
  | computeDmWrite (lead : fieldAt op 21 3 = 0b011) (dir : fieldAt op 19 1 = 1) :
      Format op (computeDmWrite (fieldG op) (fieldZ op) (fieldAmf op) (fieldYop op) (fieldXop op) (fieldDreg op)
        (fieldI op) (fieldM op))
  | computeDmRead (lead : fieldAt op 21 3 = 0b011) (dir : fieldAt op 19 1 = 0) :
      Format op (computeDmRead (fieldG op) (fieldZ op) (fieldAmf op) (fieldYop op) (fieldXop op) (fieldDreg op)
        (fieldI op) (fieldM op))
  | computePmWrite (lead : fieldAt op 19 5 = 0b01011) :
      Format op (computePmWrite (fieldZ op) (fieldAmf op) (fieldYop op) (fieldXop op) (fieldDreg op) (fieldI op)
        (fieldM op))
  | computePmRead (lead : fieldAt op 19 5 = 0b01010) :
      Format op (computePmRead (fieldZ op) (fieldAmf op) (fieldYop op) (fieldXop op) (fieldDreg op) (fieldI op)
        (fieldM op))
  | loadImm16 (lead : fieldAt op 20 4 = 0b0100) : Format op (.loadImm16 (fieldAt op 4 16) (fieldAt op 0 4))
  | loadImm14 (lead : fieldAt op 20 4 = 0b0011) :
      Format op (.loadImm14 ⟨fieldAt op 18 2, fieldAt op 0 4⟩ (fieldAt op 4 14))
  | computeMove (lead : fieldAt op 19 5 = 0b00101) :
      Format op (.computeMove (fieldZ op) (fieldAmf op) (fieldYop op) (fieldXop op) (fieldAt op 4 4) (fieldAt op 0 4))
  | condCompute (lead : fieldAt op 19 5 = 0b00100) :
      Format op (condCompute (fieldZ op) (fieldAmf op) (fieldYop op) (fieldXop op) (fieldCond op))
  | call (lead : fieldAt op 18 6 = 0b000111) : Format op (.call (fieldAt op 4 14) (fieldCond op))
  | jump (lead : fieldAt op 18 6 = 0b000110) : Format op (.jump (fieldAt op 4 14) (fieldCond op))
  | doUntil (lead : fieldAt op 18 6 = 0b000101) : Format op (.doUntil (fieldAt op 4 14) (fieldCond op))
  | nop (lead : fieldAt op 16 8 = 0x00) : Format op .nop
  | reserved01 (lead : fieldAt op 16 8 = 0x01) : Format op .reserved01
  | reserved02 (lead : fieldAt op 16 8 = 0x02) : Format op .reserved02
  | reserved03 (lead : fieldAt op 16 8 = 0x03) : Format op .reserved03
  | stackControl (lead : fieldAt op 16 8 = 0x04) :
      Format op (.stackControl (fieldAt op 4 1 = 1) (fieldAt op 3 1 = 1) (fieldAt op 2 1 = 1) (fieldAt op 0 2))
  | satMr (lead : fieldAt op 16 8 = 0x05) : Format op .satMr
  | divs (lead : fieldAt op 16 8 = 0x06) : Format op (.divs (fieldYop op) (fieldXop op))
  | divq (lead : fieldAt op 16 8 = 0x07) : Format op (.divq (fieldXop op))
  | reserved08 (lead : fieldAt op 16 8 = 0x08) : Format op .reserved08
  | modify (lead : fieldAt op 16 8 = 0x09) :
      Format op (.modify (Gen.ofBits (fieldAt op 4 1)) (fieldI op) (fieldM op))
  | rti (lead : fieldAt op 16 8 = 0x0A) (dir : fieldAt op 4 1 = 1) : Format op (.rti (fieldCond op))
  | rts (lead : fieldAt op 16 8 = 0x0A) (dir : fieldAt op 4 1 = 0) : Format op (.rts (fieldCond op))
  | callInd (lead : fieldAt op 16 8 = 0x0B) (dir : fieldAt op 4 1 = 1) :
      Format op (.callInd (fieldAt op 6 2) (fieldCond op))
  | jumpInd (lead : fieldAt op 16 8 = 0x0B) (dir : fieldAt op 4 1 = 0) :
      Format op (.jumpInd (fieldAt op 6 2) (fieldCond op))
  | modeControl (lead : fieldAt op 16 8 = 0x0C) :
      Format op (.modeControl (fieldAt op 14 2) (fieldAt op 12 2) (fieldAt op 10 2) (fieldAt op 8 2) (fieldAt op 6 2)
        (fieldAt op 4 2) (fieldAt op 2 2))
  | moveReg (lead : fieldAt op 16 8 = 0x0D) :
      Format op (.moveReg ⟨fieldAt op 10 2, fieldAt op 4 4⟩ ⟨fieldAt op 8 2, fieldAt op 0 4⟩)
  | condShift (lead : fieldAt op 16 8 = 0x0E) :
      Format op (condShift (fieldSf op) (fieldXop op) (fieldCond op))
  | immShift (lead : fieldAt op 16 8 = 0x0F) :
      Format op (immShift (fieldSf op) (fieldXop op) (fieldAt op 0 8))
  | shiftMove (lead : fieldAt op 16 8 = 0x10) :
      Format op (.shiftMove (fieldSf op) (fieldXop op) (fieldAt op 4 4) (fieldAt op 0 4))
  | shiftPmWrite (lead : fieldAt op 16 8 = 0x11) (dir : fieldAt op 15 1 = 1) :
      Format op (.shiftPmWrite (fieldSf op) (fieldXop op) (fieldDreg op) (fieldI op) (fieldM op))
  | shiftPmRead (lead : fieldAt op 16 8 = 0x11) (dir : fieldAt op 15 1 = 0) :
      Format op (.shiftPmRead (fieldSf op) (fieldXop op) (fieldDreg op) (fieldI op) (fieldM op))
  | shiftDmWrite (lead : fieldAt op 17 7 = 0b0001001) (dir : fieldAt op 15 1 = 1) :
      Format op (.shiftDmWrite (Gen.ofBits (fieldAt op 16 1)) (fieldSf op) (fieldXop op) (fieldDreg op) (fieldI op)
        (fieldM op))
  | shiftDmRead (lead : fieldAt op 17 7 = 0b0001001) (dir : fieldAt op 15 1 = 0) :
      Format op (.shiftDmRead (Gen.ofBits (fieldAt op 16 1)) (fieldSf op) (fieldXop op) (fieldDreg op) (fieldI op)
        (fieldM op))

section Decoder
variable {op : PWord} {i : Instr}

/-- The bit G stands among the leading bits of F_CDM. -/
theorem lead_of_dm (lead : fieldAt op 21 3 = 0b011) : fieldAt op 20 4 = 0b0110 ∨ fieldAt op 20 4 = 0b0111 := by
  have split : ∀ v : BitVec 4, v.extractLsb' 1 3 = 0b011 → v = 0b0110 ∨ v = 0b0111 := by decide
  exact split _ ((fieldAt_within rfl 21 3 (by decide)).symm.trans lead)

/-- The bit G stands in the top byte of F_SDM. -/
theorem lead_of_shiftDm (lead : fieldAt op 17 7 = 0b0001001) : fieldAt op 16 8 = 0x12 ∨ fieldAt op 16 8 = 0x13 := by
  have split : ∀ v : BitVec 8, v.extractLsb' 1 7 = 0b0001001 → v = 0x12 ∨ v = 0x13 := by decide
  exact split _ ((fieldAt_within rfl 17 7 (by decide)).symm.trans lead)

/-- The decoder answers by the format of the word: the leading bits of one format fail every test before its own
(R101). -/
theorem Format.decode_eq (f : Format op i) : decode op = i := by
  cases f with
  | dualRead lead | storeImm lead | storeDirect lead | loadDirect lead | computePmWrite lead | computePmRead lead
  | loadImm16 lead | loadImm14 lead | computeMove lead | condCompute lead | call lead | jump lead | doUntil lead =>
    simp (disch := decide) [decode, fieldAt_within lead]
  | nop lead | reserved01 lead | reserved02 lead | reserved03 lead | stackControl lead | satMr lead | divs lead
  | divq lead | reserved08 lead | modify lead | modeControl lead | moveReg lead | condShift lead | immShift lead
  | shiftMove lead =>
    simp (disch := decide) [decode, decodeLow, fieldAt_within lead]
  | rti lead dir | rts lead dir | callInd lead dir | jumpInd lead dir | shiftPmWrite lead dir | shiftPmRead lead dir =>
    simp (disch := decide) [decode, decodeLow, fieldAt_within lead, dir]
  | computeDmWrite lead dir | computeDmRead lead dir =>
    rcases lead_of_dm lead with wide | wide <;> simp (disch := decide) [decode, fieldAt_within wide, dir]
  | shiftDmWrite lead dir | shiftDmRead lead dir =>
    rcases lead_of_shiftDm lead with wide | wide <;>
      simp (disch := decide) [decode, decodeLow, fieldAt_within wide, dir]

/-- Every top byte begins with the leading bits of a format (R111, R117). -/
theorem lead_cases (op : PWord) :
    fieldAt op 22 2 = 0b11 ∨ fieldAt op 21 3 = 0b101 ∨ fieldAt op 20 4 = 0b1001 ∨ fieldAt op 20 4 = 0b1000 ∨
    fieldAt op 21 3 = 0b011 ∨ fieldAt op 19 5 = 0b01011 ∨ fieldAt op 19 5 = 0b01010 ∨ fieldAt op 20 4 = 0b0100 ∨
    fieldAt op 20 4 = 0b0011 ∨ fieldAt op 19 5 = 0b00101 ∨ fieldAt op 19 5 = 0b00100 ∨ fieldAt op 18 6 = 0b000111 ∨
    fieldAt op 18 6 = 0b000110 ∨ fieldAt op 18 6 = 0b000101 ∨
    fieldAt op 16 8 = 0x00 ∨ fieldAt op 16 8 = 0x01 ∨ fieldAt op 16 8 = 0x02 ∨ fieldAt op 16 8 = 0x03 ∨
    fieldAt op 16 8 = 0x04 ∨ fieldAt op 16 8 = 0x05 ∨ fieldAt op 16 8 = 0x06 ∨ fieldAt op 16 8 = 0x07 ∨
    fieldAt op 16 8 = 0x08 ∨ fieldAt op 16 8 = 0x09 ∨ fieldAt op 16 8 = 0x0A ∨ fieldAt op 16 8 = 0x0B ∨
    fieldAt op 16 8 = 0x0C ∨ fieldAt op 16 8 = 0x0D ∨ fieldAt op 16 8 = 0x0E ∨ fieldAt op 16 8 = 0x0F ∨
    fieldAt op 16 8 = 0x10 ∨ fieldAt op 16 8 = 0x11 ∨ fieldAt op 17 7 = 0b0001001 := by
  generalize top : fieldAt op 16 8 = t
  simp (disch := decide) only [fieldAt_within top]
  clear top
  revert t
  decide

/-- A field of one bit is clear or set. -/
theorem oneBit_cases : ∀ b : BitVec 1, b = 0 ∨ b = 1 := by decide

/-- Every word has a format (R101). -/
theorem exists_format (op : PWord) : ∃ i, Format op i := by
  rcases lead_cases op with lead | lead | lead | lead | lead | lead | lead | lead | lead | lead | lead | lead | lead |
    lead | lead | lead | lead | lead | lead | lead | lead | lead | lead | lead | lead | lead | lead | lead | lead |
    lead | lead | lead | lead
  · exact ⟨_, .dualRead lead⟩
  · exact ⟨_, .storeImm lead⟩
  · exact ⟨_, .storeDirect lead⟩
  · exact ⟨_, .loadDirect lead⟩
  · rcases oneBit_cases (fieldAt op 19 1) with dir | dir
    exacts [⟨_, .computeDmRead lead dir⟩, ⟨_, .computeDmWrite lead dir⟩]
  · exact ⟨_, .computePmWrite lead⟩
  · exact ⟨_, .computePmRead lead⟩
  · exact ⟨_, .loadImm16 lead⟩
  · exact ⟨_, .loadImm14 lead⟩
  · exact ⟨_, .computeMove lead⟩
  · exact ⟨_, .condCompute lead⟩
  · exact ⟨_, .call lead⟩
  · exact ⟨_, .jump lead⟩
  · exact ⟨_, .doUntil lead⟩
  · exact ⟨_, .nop lead⟩
  · exact ⟨_, .reserved01 lead⟩
  · exact ⟨_, .reserved02 lead⟩
  · exact ⟨_, .reserved03 lead⟩
  · exact ⟨_, .stackControl lead⟩
  · exact ⟨_, .satMr lead⟩
  · exact ⟨_, .divs lead⟩
  · exact ⟨_, .divq lead⟩
  · exact ⟨_, .reserved08 lead⟩
  · exact ⟨_, .modify lead⟩
  · rcases oneBit_cases (fieldAt op 4 1) with dir | dir
    exacts [⟨_, .rts lead dir⟩, ⟨_, .rti lead dir⟩]
  · rcases oneBit_cases (fieldAt op 4 1) with dir | dir
    exacts [⟨_, .jumpInd lead dir⟩, ⟨_, .callInd lead dir⟩]
  · exact ⟨_, .modeControl lead⟩
  · exact ⟨_, .moveReg lead⟩
  · exact ⟨_, .condShift lead⟩
  · exact ⟨_, .immShift lead⟩
  · exact ⟨_, .shiftMove lead⟩
  · rcases oneBit_cases (fieldAt op 15 1) with dir | dir
    exacts [⟨_, .shiftPmRead lead dir⟩, ⟨_, .shiftPmWrite lead dir⟩]
  · rcases oneBit_cases (fieldAt op 15 1) with dir | dir
    exacts [⟨_, .shiftDmRead lead dir⟩, ⟨_, .shiftDmWrite lead dir⟩]

/-- The instruction of a word is that of its format. -/
theorem format_decode (op : PWord) : Format op (decode op) := by
  obtain ⟨i, f⟩ := exists_format op
  rwa [f.decode_eq]

end Decoder

/-! ### What holds format by format -/

section WellFormed
variable (z : Dest) (g : Gen) (amf : Amf) (sf : ShFn) (yop : BitVec 2) (xop : BitVec 3) (dreg : BitVec 4)
variable (i m : BitVec 2) (cond : Cond) (n : BitVec 8)

theorem condShift_wellFormed : (condShift sf xop cond).wellFormed = true := by cases sf <;> rfl

theorem immShift_wellFormed : (immShift sf xop n).wellFormed = true := by cases sf <;> rfl

theorem condCompute_wellFormed : (condCompute z amf yop xop cond).wellFormed = true := by
  cases amf with | alu fn | mac fn => cases z <;> cases fn <;> rfl

theorem computePmRead_wellFormed : (computePmRead z amf yop xop dreg i m).wellFormed = true := by
  cases amf with | alu fn | mac fn => cases fn <;> rfl

theorem computePmWrite_wellFormed : (computePmWrite z amf yop xop dreg i m).wellFormed = true := by
  cases amf with | alu fn | mac fn => cases fn <;> rfl

theorem computeDmRead_wellFormed : (computeDmRead g z amf yop xop dreg i m).wellFormed = true := by
  cases amf with | alu fn | mac fn => cases fn <;> rfl

theorem computeDmWrite_wellFormed : (computeDmWrite g z amf yop xop dreg i m).wellFormed = true := by
  cases amf with | alu fn | mac fn => cases fn <;> rfl

end WellFormed

section Rows
variable {op : PWord} {i : Instr}

/-- A format reads well-formed instructions alone: the row of a MAC function is chosen by its code (R103). -/
theorem Format.wellFormed (f : Format op i) : i.wellFormed = true := by
  cases f with
  | condShift => exact condShift_wellFormed _ _ _
  | immShift => exact immShift_wellFormed _ _ _
  | condCompute => exact condCompute_wellFormed _ _ _ _ _
  | computePmRead => exact computePmRead_wellFormed _ _ _ _ _ _ _
  | computePmWrite => exact computePmWrite_wellFormed _ _ _ _ _ _ _
  | computeDmRead => exact computeDmRead_wellFormed _ _ _ _ _ _ _ _
  | computeDmWrite => exact computeDmWrite_wellFormed _ _ _ _ _ _ _ _
  | _ => rfl

/-- A word has the fixed bits of the row that its format gives it. -/
theorem Format.row_matches (f : Format op i) : i.row.Matches op := by
  cases f with
  | dualRead lead | storeImm lead | storeDirect lead | loadDirect lead | loadImm16 lead | loadImm14 lead
  | computeMove lead | call lead | jump lead | doUntil lead | nop lead | reserved01 lead | reserved02 lead
  | reserved03 lead | stackControl lead | satMr lead | divs lead | divq lead | reserved08 lead | modify lead
  | modeControl lead | moveReg lead | shiftMove lead => exact TableRow.ofField_matches lead
  | rti lead dir | rts lead dir | callInd lead dir | jumpInd lead dir | shiftPmWrite lead dir | shiftPmRead lead dir
  | shiftDmWrite lead dir | shiftDmRead lead dir =>
    exact (TableRow.ofField_matches lead).withField (BitVec.allOnes 1) dir
  | condShift lead =>
    rw [condShift_row]; exact (TableRow.ofField_matches lead).withField _ (by simp)
  | immShift lead =>
    rw [immShift_row]; exact (TableRow.ofField_matches lead).withField _ (by simp)
  | condCompute lead =>
    rw [condCompute_row]
    exact ((TableRow.ofField_matches lead).withField _ (by simp)).withField _ (by simp)
  | computePmRead lead =>
    rw [computePmRead_row]; exact (TableRow.ofField_matches lead).withField _ (by simp)
  | computePmWrite lead =>
    rw [computePmWrite_row]; exact (TableRow.ofField_matches lead).withField _ (by simp)
  | computeDmRead lead dir =>
    rw [computeDmRead_row]
    exact ((TableRow.ofField_matches lead).withField _ dir).withField _ (by simp)
  | computeDmWrite lead dir =>
    rw [computeDmWrite_row]
    exact ((TableRow.ofField_matches lead).withField _ dir).withField _ (by simp)


/-- A word that agrees with one of this format where the row fixes bits has the same format, and its instruction the
same row: a row fixes every bit that selects its format. -/
theorem Format.of_agree {op' : PWord} (f : Format op' i) (agree : i.row.Agree op op') :
    ∃ j, Format op j ∧ j.row = i.row := by
  cases f with
  | dualRead lead => exact ⟨_, .dualRead (lead_of_agree lead agree), rfl⟩
  | storeImm lead => exact ⟨_, .storeImm (lead_of_agree lead agree), rfl⟩
  | storeDirect lead => exact ⟨_, .storeDirect (lead_of_agree lead agree), rfl⟩
  | loadDirect lead => exact ⟨_, .loadDirect (lead_of_agree lead agree), rfl⟩
  | loadImm16 lead => exact ⟨_, .loadImm16 (lead_of_agree lead agree), rfl⟩
  | loadImm14 lead => exact ⟨_, .loadImm14 (lead_of_agree lead agree), rfl⟩
  | computeMove lead => exact ⟨_, .computeMove (lead_of_agree lead agree), rfl⟩
  | call lead => exact ⟨_, .call (lead_of_agree lead agree), rfl⟩
  | jump lead => exact ⟨_, .jump (lead_of_agree lead agree), rfl⟩
  | doUntil lead => exact ⟨_, .doUntil (lead_of_agree lead agree), rfl⟩
  | nop lead => exact ⟨_, .nop (lead_of_agree lead agree), rfl⟩
  | reserved01 lead => exact ⟨_, .reserved01 (lead_of_agree lead agree), rfl⟩
  | reserved02 lead => exact ⟨_, .reserved02 (lead_of_agree lead agree), rfl⟩
  | reserved03 lead => exact ⟨_, .reserved03 (lead_of_agree lead agree), rfl⟩
  | stackControl lead => exact ⟨_, .stackControl (lead_of_agree lead agree), rfl⟩
  | satMr lead => exact ⟨_, .satMr (lead_of_agree lead agree), rfl⟩
  | divs lead => exact ⟨_, .divs (lead_of_agree lead agree), rfl⟩
  | divq lead => exact ⟨_, .divq (lead_of_agree lead agree), rfl⟩
  | reserved08 lead => exact ⟨_, .reserved08 (lead_of_agree lead agree), rfl⟩
  | modify lead => exact ⟨_, .modify (lead_of_agree lead agree), rfl⟩
  | modeControl lead => exact ⟨_, .modeControl (lead_of_agree lead agree), rfl⟩
  | moveReg lead => exact ⟨_, .moveReg (lead_of_agree lead agree), rfl⟩
  | shiftMove lead => exact ⟨_, .shiftMove (lead_of_agree lead agree), rfl⟩
  | rti lead dir => exact have ⟨lead, dir⟩ := lead_dir_of_agree lead dir agree; ⟨_, .rti lead dir, rfl⟩
  | rts lead dir => exact have ⟨lead, dir⟩ := lead_dir_of_agree lead dir agree; ⟨_, .rts lead dir, rfl⟩
  | callInd lead dir => exact have ⟨lead, dir⟩ := lead_dir_of_agree lead dir agree; ⟨_, .callInd lead dir, rfl⟩
  | jumpInd lead dir => exact have ⟨lead, dir⟩ := lead_dir_of_agree lead dir agree; ⟨_, .jumpInd lead dir, rfl⟩
  | shiftPmWrite lead dir =>
    exact have ⟨lead, dir⟩ := lead_dir_of_agree lead dir agree; ⟨_, .shiftPmWrite lead dir, rfl⟩
  | shiftPmRead lead dir =>
    exact have ⟨lead, dir⟩ := lead_dir_of_agree lead dir agree; ⟨_, .shiftPmRead lead dir, rfl⟩
  | shiftDmWrite lead dir =>
    exact have ⟨lead, dir⟩ := lead_dir_of_agree lead dir agree; ⟨_, .shiftDmWrite lead dir, rfl⟩
  | shiftDmRead lead dir =>
    exact have ⟨lead, dir⟩ := lead_dir_of_agree lead dir agree; ⟨_, .shiftDmRead lead dir, rfl⟩
  | condShift lead =>
    rw [condShift_row] at agree
    have sf := agree.wholeField (by simp [TableRow.ofField])
    exact ⟨_, .condShift (lead_of_agree lead agree.head), by simp only [condShift_row, fieldSf_eq, sf]⟩
  | immShift lead =>
    rw [immShift_row] at agree
    have sf := agree.field (by simp [TableRow.ofField])
    refine ⟨_, .immShift (lead_of_agree lead agree.head), ?_⟩
    simp only [immShift_row]
    exact TableRow.withField_congr (ShFn.immMask_unique _ _ sf) (by simpa using sf)
  | condCompute lead =>
    rw [condCompute_row] at agree
    have amf := agree.head.wholeField (by simp [TableRow.ofField])
    have z := agree.field (by simp [TableRow.ofField, TableRow.withField])
    refine ⟨_, .condCompute (lead_of_agree lead agree.head.head), ?_⟩
    have fn : fieldAmf op = fieldAmf op' := congrArg Amf.ofBits amf
    rw [condCompute_row, condCompute_row, fn]
    exact TableRow.withField_congr rfl (by simpa using z)
  | computePmRead lead =>
    rw [computePmRead_row] at agree
    refine ⟨_, .computePmRead (lead_of_agree lead agree.head), ?_⟩
    simpa only [computePmRead_row] using agree.memField (by simp [TableRow.ofField])
  | computePmWrite lead =>
    rw [computePmWrite_row] at agree
    refine ⟨_, .computePmWrite (lead_of_agree lead agree.head), ?_⟩
    simpa only [computePmWrite_row] using agree.memField (by simp [TableRow.ofField])
  | computeDmRead lead dir =>
    rw [computeDmRead_row] at agree
    obtain ⟨lead, dir⟩ := lead_dir_of_agree lead dir agree.head
    refine ⟨_, .computeDmRead lead dir, ?_⟩
    simpa only [computeDmRead_row] using agree.memField (by simp [TableRow.ofField, TableRow.withField])
  | computeDmWrite lead dir =>
    rw [computeDmWrite_row] at agree
    obtain ⟨lead, dir⟩ := lead_dir_of_agree lead dir agree.head
    refine ⟨_, .computeDmWrite lead dir, ?_⟩
    simpa only [computeDmWrite_row] using agree.memField (by simp [TableRow.ofField, TableRow.withField])

end Rows

/-! ### What the decoder reads from an encoded instruction -/

section RoundTrip
variable (z : Dest) (g : Gen) (amf : Amf) (sf : ShFn) (yop : BitVec 2) (xop : BitVec 3) (dreg : BitVec 4)
variable (i m : BitVec 2) (cond : Cond) (n : BitVec 8)

@[simp] theorem flagBit_eq_one (b : Bool) : flagBit b = 1#1 ↔ b = true := by cases b <;> decide

theorem decode_encodeCondCompute :
    decode (encodeCondCompute z amf yop xop cond) = condCompute z amf yop xop cond := by
  refine (Format.condCompute ?_).decode_eq.trans ?_ <;> simp [encodeCondCompute]

theorem decode_encodeCondShift : decode (encodeCondShift sf xop cond) = condShift sf xop cond := by
  refine (Format.condShift ?_).decode_eq.trans ?_ <;> simp [encodeCondShift]

theorem decode_encodeImmShift : decode (encodeImmShift sf xop n) = immShift sf xop n := by
  refine (Format.immShift ?_).decode_eq.trans ?_ <;> simp [encodeImmShift]

theorem decode_encodePmRead :
    decode (encodePm 0x500000 z amf yop xop dreg i m) = computePmRead z amf yop xop dreg i m := by
  refine (Format.computePmRead ?_).decode_eq.trans ?_ <;> simp [encodePm]

theorem decode_encodePmWrite :
    decode (encodePm 0x580000 z amf yop xop dreg i m) = computePmWrite z amf yop xop dreg i m := by
  refine (Format.computePmWrite ?_).decode_eq.trans ?_ <;> simp [encodePm]

theorem decode_encodeDmRead :
    decode (encodeDm 0x600000 g z amf yop xop dreg i m) = computeDmRead g z amf yop xop dreg i m := by
  refine (Format.computeDmRead ?_ ?_).decode_eq.trans ?_ <;> simp [encodeDm]

theorem decode_encodeDmWrite :
    decode (encodeDm 0x680000 g z amf yop xop dreg i m) = computeDmWrite g z amf yop xop dreg i m := by
  refine (Format.computeDmWrite ?_ ?_).decode_eq.trans ?_ <;> simp [encodeDm]

end RoundTrip

/-- The fields of an encoded instruction are read where they were put. -/
theorem decode_encode (i : Instr) (h : i.wellFormed = true) : decode (encode i) = i := by
  cases i with
  | nop | reserved01 | reserved02 | reserved03 | reserved08 | satMr | shiftImmReserved => rfl
  | stackControl pp lp cp spp => refine (Format.stackControl ?_).decode_eq.trans ?_ <;> simp [encode]
  | divs yop xop => refine (Format.divs ?_).decode_eq.trans ?_ <;> simp [encode]
  | divq xop => refine (Format.divq ?_).decode_eq.trans ?_ <;> simp [encode]
  | modify g i m => refine (Format.modify ?_).decode_eq.trans ?_ <;> simp [encode]
  | rts cond => refine (Format.rts ?_ ?_).decode_eq.trans ?_ <;> simp [encode]
  | rti cond => refine (Format.rti ?_ ?_).decode_eq.trans ?_ <;> simp [encode]
  | jumpInd i cond => refine (Format.jumpInd ?_ ?_).decode_eq.trans ?_ <;> simp [encode]
  | callInd i cond => refine (Format.callInd ?_ ?_).decode_eq.trans ?_ <;> simp [encode]
  | modeControl ti mm sat ol br sr gm => refine (Format.modeControl ?_).decode_eq.trans ?_ <;> simp [encode]
  | moveReg dst src => refine (Format.moveReg ?_).decode_eq.trans ?_ <;> simp [encode]
  | shiftMove sf xop ddreg sdreg => refine (Format.shiftMove ?_).decode_eq.trans ?_ <;> simp [encode]
  | shiftPmRead sf xop dreg i m => refine (Format.shiftPmRead ?_ ?_).decode_eq.trans ?_ <;> simp [encode]
  | shiftPmWrite sf xop dreg i m => refine (Format.shiftPmWrite ?_ ?_).decode_eq.trans ?_ <;> simp [encode]
  | shiftDmRead g sf xop dreg i m => refine (Format.shiftDmRead ?_ ?_).decode_eq.trans ?_ <;> simp [encode]
  | shiftDmWrite g sf xop dreg i m => refine (Format.shiftDmWrite ?_ ?_).decode_eq.trans ?_ <;> simp [encode]
  | doUntil addr term => refine (Format.doUntil ?_).decode_eq.trans ?_ <;> simp [encode]
  | jump addr cond => refine (Format.jump ?_).decode_eq.trans ?_ <;> simp [encode]
  | call addr cond => refine (Format.call ?_).decode_eq.trans ?_ <;> simp [encode]
  | computeMove z amf yop xop ddreg sdreg => refine (Format.computeMove ?_).decode_eq.trans ?_ <;> simp [encode]
  | loadImm14 dst data => refine (Format.loadImm14 ?_).decode_eq.trans ?_ <;> simp [encode]
  | loadImm16 data dreg => refine (Format.loadImm16 ?_).decode_eq.trans ?_ <;> simp [encode]
  | loadDirect dst addr => refine (Format.loadDirect ?_).decode_eq.trans ?_ <;> simp [encode]
  | storeDirect addr src => refine (Format.storeDirect ?_).decode_eq.trans ?_ <;> simp [encode]
  | storeImm g data i m => refine (Format.storeImm ?_).decode_eq.trans ?_ <;> simp [encode]
  | dualRead pd dd amf yop xop pmi pmm dmi dmm => refine (Format.dualRead ?_).decode_eq.trans ?_ <;> simp [encode]
  | lshiftHi | orLshiftHi | lshiftLo | orLshiftLo | ashiftHi | orAshiftHi | ashiftLo | orAshiftLo | normHi
  | orNormHi | normLo | orNormLo | expHi | expHix | expLo | expAdj => exact decode_encodeCondShift _ _ _
  | lshiftHiImm | orLshiftHiImm | lshiftLoImm | orLshiftLoImm | ashiftHiImm | orAshiftHiImm | ashiftLoImm
  | orAshiftLoImm => exact decode_encodeImmShift _ _ _
  | condNoCompute | mrMulRnd | mfMulRnd | mrAddRnd | mfAddRnd | mrSubRnd | mfSubRnd | mrMulSS | mfMulSS | mrMulSU
  | mfMulSU | mrMulUS | mfMulUS | mrMulUU | mfMulUU | mrAddSS | mfAddSS | mrAddSU | mfAddSU | mrAddUS | mfAddUS
  | mrAddUU | mfAddUU | mrSubSS | mfSubSS | mrSubSU | mfSubSU | mrSubUS | mfSubUS | mrSubUU | mfSubUU | arPassY
  | afPassY | arIncY | afIncY | arAddC | afAddC | arAdd | afAdd | arNotY | afNotY | arNegY | afNegY | arSubC
  | afSubC | arSub | afSub | arDecY | afDecY | arRsub | afRsub | arRsubC | afRsubC | arNotX | afNotX | arAnd
  | afAnd | arOr | afOr | arXor | afXor | arAbsX | afAbsX => exact decode_encodeCondCompute _ _ _ _ _
  | pmRead | pmReadAlu | pmReadMac1 => exact decode_encodePmRead _ _ _ _ _ _ _
  | pmReadMac8to15 z fn | pmReadMac4to7 z fn | pmReadMac2to3 z fn =>
    exact (decode_encodePmRead _ _ _ _ _ _ _).trans (by cases fn <;> cases h <;> rfl)
  | pmWrite | pmWriteAlu | pmWriteMac1 => exact decode_encodePmWrite _ _ _ _ _ _ _
  | pmWriteMac8to15 z fn | pmWriteMac4to7 z fn | pmWriteMac2to3 z fn =>
    exact (decode_encodePmWrite _ _ _ _ _ _ _).trans (by cases fn <;> cases h <;> rfl)
  | dmRead | dmReadAlu | dmReadMac1 => exact decode_encodeDmRead _ _ _ _ _ _ _ _
  | dmReadMac8to15 g z fn | dmReadMac4to7 g z fn | dmReadMac2to3 g z fn =>
    exact (decode_encodeDmRead _ _ _ _ _ _ _ _).trans (by cases fn <;> cases h <;> rfl)
  | dmWrite | dmWriteAlu | dmWriteMac1 => exact decode_encodeDmWrite _ _ _ _ _ _ _ _
  | dmWriteMac8to15 g z fn | dmWriteMac4to7 g z fn | dmWriteMac2to3 g z fn =>
    exact (decode_encodeDmWrite _ _ _ _ _ _ _ _).trans (by cases fn <;> cases h <;> rfl)

theorem decodeTableWord_toNat (op : PWord) : decodeTableWord 24 op.toNat = some (decode op) := by
  unfold decodeTableWord
  rw [if_pos (le_refl 24), Nat.mod_eq_of_lt op.isLt, BitVec.ofNat_toNat, BitVec.setWidth_eq]

/-- Settles O4: a word is decoded by its format, whose fields are where the encoder put them. -/
theorem decodeOfEncodeIsTheInstruction : Obligations.DecodeOfEncodeIsTheInstruction := by
  unfold Obligations.DecodeOfEncodeIsTheInstruction
  intro i h
  have decoded := decode_encode i h
  exact ⟨decoded, by rw [decodeTableWord_toNat, decoded]⟩

/-- Settles O5: a word matches its own row; a word that matches the row of `j` agrees there with the word of `j`, which
decodes to `j`, so both decode to the same row. -/
theorem everyWordMatchesExactlyOneRow : Obligations.EveryWordMatchesExactlyOneRow := by
  unfold Obligations.EveryWordMatchesExactlyOneRow
  intro op
  refine ⟨(format_decode op).wellFormed, (format_decode op).row_matches, fun j wf matched => ?_⟩
  have fj : Format (encode j) j := by
    have f := format_decode (encode j)
    rwa [decode_encode j wf] at f
  have agree : j.row.Agree op (encode j) := TableRow.Matches.agree matched fj.row_matches
  obtain ⟨i, fi, sameRow⟩ := fj.of_agree agree
  rw [fi.decode_eq, sameRow]

end Sys2Proof
end

/-! # Register writes and mode control

What a write of one register does: what it then reads as, which registers read as before, and what becomes of BASE, the
counter stack and the banks. `regWritten_writeReg` puts these together; the instructions that write a register, and mode
control, rest on it.
-/
section
namespace Sys2Proof.Machine

/-! ### Pushes (10_state.md R42) -/

section Push
variable {α : Type} {n : Nat} (st : HwStack α n) (v : α)

theorem HwStack.pushed_push : Pushed v st ((st.push v).getD st) := by
  rcases st.push_cases v with ⟨room, done⟩ | ⟨full, dropped⟩
  · rw [done]
    refine ⟨fun _ => ⟨rfl, by simp, fun k other => ?_⟩, fun full => absurd full (Nat.ne_of_lt room)⟩
    simp [Ne.symm other]
  · rw [dropped]
    exact ⟨fun room => absurd full (Nat.ne_of_lt room), fun _ => rfl⟩

theorem pushFlags_sstatPush (e : Nat) (he : e + 1 < 8) (sstat : BitVec 8) :
    PushFlags e (decide (st.sp.val = n)) sstat (sstatPush e (st.push v).isSome sstat) := by
  rcases st.push_cases v with ⟨room, done⟩ | ⟨full, dropped⟩
  · constructor <;> simp [done, sstatPush, Nat.ne_of_lt room, show e < 8 by omega]
  · constructor <;> simp [dropped, sstatPush, full, he]

end Push

theorem stackFlagsKept_sstatPush {e j : Nat} (apart : e + 1 < j ∨ j + 1 < e) (done : Bool) (sstat : BitVec 8) :
    StackFlagsKept j sstat (sstatPush e done sstat) :=
  ⟨sstatPush_other e j done sstat (by omega) (by omega), sstatPush_other e (j + 1) done sstat (by omega) (by omega)⟩

/-! ### BASE (10_state.md R24) -/

theorem Cpu.baseOf_rebase (k : Fin 8) (c : Cpu) :
    BaseOf (c.rebase k).i[k] (c.rebase k).l[k] (c.rebase k).base[k] := by
  simpa [Cpu.rebase, BaseOf] using and_lmask_toNat c.i[k] c.l[k]

theorem Cpu.rebase_base_of_ne {j k : Fin 8} (other : j ≠ k) (c : Cpu) : (c.rebase j).base[k] = c.base[k] := by
  simp [Cpu.rebase, Fin.val_ne_of_ne other]

/-! ### Cutting to a register's width and widening again (10_state.md R36, R37) -/

/-- Cut to `n` bits and widened by zero, a word keeps its low `n` bits. -/
theorem setWidth_setWidth_eq_and (n : Nat) (v : Word) :
    (v.setWidth n).setWidth 16 = v &&& BitVec.ofNat 16 (2 ^ n - 1) := by
  apply BitVec.eq_of_getLsbD_eq
  intro j hj
  rw [BitVec.getLsbD_setWidth, BitVec.getLsbD_setWidth, BitVec.getLsbD_and, BitVec.getLsbD_ofNat,
    Nat.testBit_two_pow_sub_one]
  simp [hj, Bool.and_comm]

/-- Cut to `n` bits and widened by sign, a word is the integer its low `n` bits stand for. -/
theorem signExtend_setWidth_eq_ofInt {n : Nat} (hn : n ≤ 16) (v : Word) :
    (v.setWidth n).signExtend 16 = BitVec.ofInt 16 (BitVec.ofInt n v.toInt).toInt := by
  rw [← BitVec.signExtend_eq_setWidth_of_le v hn]
  rfl

/-- A write of SSTAT gives the OVER bits the written ones and leaves the EMPTY bits (10_state.md R31). -/
theorem sstatWrite_setWidth (v : Word) (sstat : BitVec 8) :
    (sstatWrite v sstat).setWidth 16 = (v &&& 0x00AA) ||| (sstat.setWidth 16 &&& 0x0055) := by
  simp only [sstatWrite, BitVec.setWidth_or, BitVec.setWidth_and, setWidth_setWidth_eq_and, BitVec.and_assoc]
  rfl

/-! ### What one register write does -/

section WriteReg
variable (r : Reg) (v : Word) (c : Cpu)

/-- The register written reads as the value it can hold (10_state.md R36 to R38). -/
theorem readReg_writeReg_same : readReg r (writeReg r v c) = r.holding v c := by
  cases r with
  | ax0 | ax1 | mx0 | mx1 | ay0 | ay1 | my0 | my1 | si | ar | mr0 | mr1 | sr0 | sr1 =>
    simp only [readReg, writeReg, Cpu.withLive_live, Reg.holding]
  | se | mr2 | sb =>
    simp only [readReg, writeReg, Cpu.withLive_live, Reg.holding]
    exact signExtend_setWidth_eq_ofInt (by decide) v
  | m k =>
    simp only [readReg, writeReg, Reg.holding, Fin.getElem_fin, Vector.getElem_set_self]
    exact signExtend_setWidth_eq_ofInt (by decide) v
  | i k | l k =>
    simp only [readReg, writeReg, Reg.holding, Cpu.rebase_i, Cpu.rebase_l, Fin.getElem_fin, Vector.getElem_set_self]
    exact setWidth_setWidth_eq_and 14 v
  | cntr => exact setWidth_setWidth_eq_and 14 v
  | astat | px => exact setWidth_setWidth_eq_and 8 v
  | mstat | icntl => exact setWidth_setWidth_eq_and 5 v
  | imask => exact setWidth_setWidth_eq_and 4 v
  | sstat => exact sstatWrite_setWidth v c.sstat

variable {r} in
/-- Every register the write does not reach reads as before. -/
theorem readReg_writeReg_of_not_reaches {q : Reg} (apart : r.reaches q = false) :
    readReg q (writeReg r v c) = readReg q c := by
  cases r with
  | ax0 | ax1 | mx0 | mx1 | ay0 | ay1 | my0 | my1 | si | se | ar | mr0 | mr1 | mr2 | sr0 | sr1 | sb =>
    cases q <;> cases apart <;> simp [readReg, writeReg]
  | astat | mstat | sstat | imask | icntl | cntr | px => cases q <;> cases apart <;> rfl
  | i k | m k | l k =>
    cases q with
    | i j | m j | l j => simp_all [Reg.reaches, readReg, writeReg, Fin.ext_iff]
    | _ => rfl

/-- Only a write of I[k] or L[k] moves a base: that of its own slot (10_state.md R24). -/
theorem writeReg_bases (k : Fin 8) :
    let d := writeReg r v c
    if r = .i k ∨ r = .l k then BaseOf d.i[k] d.l[k] d.base[k] else d.base[k] = c.base[k] := by
  cases r with
  | i j | l j =>
    by_cases same : j = k
    · subst same
      simp only [true_or, or_true, if_true]
      exact Cpu.baseOf_rebase j _
    · simp only [Reg.i.injEq, Reg.l.injEq, reduceCtorEq, same, or_self, if_false]
      exact Cpu.rebase_base_of_ne same _
  | cntr | m | astat | mstat | sstat | imask | icntl | px => simp [writeReg]
  | ax0 | ax1 | mx0 | mx1 | ay0 | ay1 | my0 | my1 | si | se | ar | mr0 | mr1 | mr2 | sr0 | sr1 | sb => simp [writeReg]

variable {r} in
/-- Only a write of CNTR pushes (10_state.md R38). -/
theorem writeReg_cntrStk (other : r ≠ .cntr) : (writeReg r v c).cntrStk = c.cntrStk := by
  cases r with
  | cntr => exact absurd rfl other
  | ax0 | ax1 | mx0 | mx1 | ay0 | ay1 | my0 | my1 | si | se | ar | mr0 | mr1 | mr2 | sr0 | sr1 | sb =>
    exact Cpu.withLive_cntrStk _ _
  | i | m | l | astat | mstat | sstat | imask | icntl | px => rfl

variable {r} in
/-- AF and MF have no slot, and the bank that is not live is out of reach (10_state.md R22, R35). -/
theorem writeReg_banks (other : r ≠ .mstat) : (writeReg r v c).shadow = c.shadow ∧
    (writeReg r v c).live.af = c.live.af ∧ (writeReg r v c).live.mf = c.live.mf := by
  cases r with
  | mstat => exact absurd rfl other
  | ax0 | ax1 | mx0 | mx1 | ay0 | ay1 | my0 | my1 | si | se | ar | mr0 | mr1 | mr2 | sr0 | sr1 | sb =>
    simp [writeReg]
  | i | m | l | astat | sstat | imask | icntl | cntr | px => exact ⟨rfl, rfl, rfl⟩

/-- A change of the live bank leaves every other field. -/
theorem Cpu.withLive_rest (f : Bank → Bank) :
    c.withLive f = { c with bank0 := (c.withLive f).bank0, bank1 := (c.withLive f).bank1 } := by
  unfold Cpu.withLive Cpu.setLive
  split <;> rfl

/-- PC, the interrupt lines and latches and the three stacks without a register have no slot (10_state.md R35). -/
theorem writeReg_rest :
    let d := writeReg r v c
    d = { c with
      bank0 := d.bank0, bank1 := d.bank1, px := d.px, i := d.i, m := d.m, l := d.l, base := d.base, cntr := d.cntr,
      astat := d.astat, mstat := d.mstat, sstat := d.sstat, imask := d.imask, icntl := d.icntl,
      cntrStk := d.cntrStk } := by
  cases r with
  | ax0 | ax1 | mx0 | mx1 | ay0 | ay1 | my0 | my1 | si | se | ar | mr0 | mr1 | mr2 | sr0 | sr1 | sb =>
    simpa [writeReg] using Cpu.withLive_rest c _
  | i | m | l | astat | mstat | sstat | imask | icntl | cntr | px => rfl

/-- The write of a register, whole (10_state.md R36 to R38). -/
theorem regWritten_writeReg : RegWritten r v c (writeReg r v c) where
  holds := readReg_writeReg_same r v c
  others _ := readReg_writeReg_of_not_reaches v c
  signExtends := by
    rintro rfl
    have sign : v.msb = v.getLsbD 15 := BitVec.msb_eq_getLsbD_last v
    simp only [readReg, writeReg, Cpu.withLive_live, sign]
    cases v.getLsbD 15 <;> rfl
  bases := writeReg_bases r v c
  pushes := by
    rintro rfl
    exact ⟨c.cntrStk.pushed_push c.cntr, pushFlags_sstatPush c.cntrStk c.cntr 2 (by decide) c.sstat,
      stackFlagsKept_sstatPush (by decide) _ _, stackFlagsKept_sstatPush (by decide) _ _,
      stackFlagsKept_sstatPush (by decide) _ _⟩
  counterStack := writeReg_cntrStk v c
  banks := writeReg_banks v c
  banksKept := by
    rintro rfl
    exact ⟨rfl, rfl⟩
  rest := writeReg_rest r v c

end WriteReg

/-! ### Writes through a slot (10_state.md R37 to R39) -/

section RegWrite
variable (slot : Slot) (v : Word) (s : State)

/-- A write through a slot is the write of its register; an invalid slot takes nothing. -/
theorem slotWritten_regWrite : SlotWritten slot v s.cpu (regWrite slot v s).cpu := by
  unfold SlotWritten
  cases valid : regAt slot with
  | some r => rw [regWrite_some valid]; exact regWritten_writeReg r v s.cpu
  | none => rw [regWrite_none valid]

/-- The slots of the registers that control interrupts are those of IMASK and ICNTL (10_state.md R35). -/
theorem controlsInterrupts_eq (slot : Slot) :
    controlsInterrupts slot = (regAt slot).any Reg.isInterruptControl := by
  obtain ⟨group, index⟩ := slot
  revert group index
  decide

/-- A write of IMASK or ICNTL asks for an evaluation of interrupts, no other write does (60_exceptions.md R316). -/
@[simp] theorem State.regWrite_evalReq :
    (regWrite slot v s).evalReq = (s.evalReq || controlsInterrupts slot) := by
  rw [controlsInterrupts_eq]
  cases valid : regAt slot with
  | some r => rw [regWrite_some valid]; rfl
  | none => rw [regWrite_none valid]; simp

/-- A write of a data register stays within the Machine State (30_encoding.md R107). -/
theorem onlyCpu_regWrite_dregSlot (dreg : BitVec 4) : OnlyCpu s (regWrite (dregSlot dreg) v s) := by
  constructor <;> simp [controlsInterrupts_dregSlot]

end RegWrite

theorem onlyCpu_onCpu (f : Cpu → Cpu) (s : State) : OnlyCpu s (onCpu f s) :=
  ⟨fun _ => rfl, fun _ => rfl, rfl, rfl, rfl, rfl⟩

/-- Settles O32: each of the four is a write through its slot, the load after one access. -/
theorem registerWritingInstructions : Obligations.RegisterWritingInstructions := by
  unfold Obligations.RegisterWritingInstructions DmKept PmKept
  intro s
  refine ⟨fun dst src => ⟨_, rfl, ?_⟩, fun data dreg => ⟨_, rfl, ?_⟩, fun dst data => ⟨_, rfl, ?_⟩,
    fun dst addr => ⟨_, rfl, ?_⟩⟩
  · simpa using slotWritten_regWrite dst (regRead src s.cpu) s
  · exact ⟨onlyCpu_regWrite_dregSlot data s dreg, slotWritten_regWrite _ data s⟩
  · simpa [BitVec.signExtend] using slotWritten_regWrite dst (data.signExtend 16) s
  · simpa [dmRead] using slotWritten_regWrite dst (s.dm.dmWord addr) (dmRead addr s).2

/-! ### Mode control (40_register_move.md R133) -/

/-- A field acts on the mode bit it is for, and only when its high bit asks for it. -/
theorem modeChange_getLsbD (field : BitVec 2) (i : Nat) (mstat : BitVec 5) (k : Nat) :
    (modeChange field i mstat).getLsbD k =
      if field.getLsbD 1 ∧ i = k ∧ k < 5 then field.getLsbD 0 else mstat.getLsbD k := by
  unfold modeChange
  cases asked : field.getLsbD 1 <;> simp

/-- Settles O33: of the five changes one is made at each bit of MSTAT. -/
theorem modeControl : Obligations.ModeControl := by
  unfold Obligations.ModeControl
  intro ti mm sat ol br sr gm s
  refine ⟨_, rfl, onlyCpu_onCpu _ s, rfl, fun k f named => ?_⟩
  show (modeControlled mm sat ol br sr s.cpu.mstat).getLsbD k = _
  have bit : k < 5 := (List.getElem?_eq_some_iff.mp named).1
  simp only [modeControlled, modeChange_getLsbD]
  interval_cases k <;> cases named <;> simp

/-! ### Words of the spec -/

/-- Settles O6: the words are closed, so the decoder answers each by evaluation. -/
theorem specWordsDecode : Obligations.SpecWordsDecode := by
  unfold Obligations.SpecWordsDecode
  exact ⟨rfl, rfl, rfl, rfl, rfl, rfl, rfl, rfl, rfl, rfl, rfl, rfl, rfl, rfl, rfl, rfl⟩

end Sys2Proof.Machine
end

/-! # The address generators and the plain stores

The update of an index and the address of an access, what a store to data memory leaves, and why the windows of the
address generators stay inside the address space: BASE is rounded down to a multiple of a power of two that covers the
length.
-/
section
namespace Sys2Proof.Machine

/-! ### Windows inside the address space (41_dag_memory.md R143) -/

/-- A base that is `I & LMASK(L)` starts a window that fits: with `2^n` the power of two that covers the length, the window
lies in one of the blocks of `2^n` addresses that make up the address space (10_state.md R24). -/
theorem BaseOf.window_fits {index len base : Addr} (h : BaseOf index len base) : base.toNat + len.toNat ≤ 16384 := by
  obtain ⟨n, covers, least, rounded⟩ := h
  have lenLt : len.toNat < 2 ^ 14 := len.isLt
  have small : n ≤ 14 := by
    by_contra large
    exact absurd (least 14 (by omega)) (by omega)
  have blocks : 2 ^ (14 - n) * 2 ^ n = 2 ^ 14 := by rw [← pow_add, Nat.sub_add_cancel small]
  have block : index.toNat / 2 ^ n < 2 ^ (14 - n) :=
    Nat.div_lt_of_lt_mul (by rw [mul_comm, blocks]; exact index.isLt)
  calc base.toNat + len.toNat ≤ index.toNat / 2 ^ n * 2 ^ n + 2 ^ n := by omega
    _ = (index.toNat / 2 ^ n + 1) * 2 ^ n := by ring
    _ ≤ 2 ^ (14 - n) * 2 ^ n := Nat.mul_le_mul_right _ block
    _ = 16384 := blocks

/-- A change that leaves BASE and L alone keeps the windows. -/
theorem Cpu.windowsFit_of_eq {c d : Cpu} (h : c.WindowsFit) (hbase : d.base = c.base) (hl : d.l = c.l) :
    d.WindowsFit := by
  intro k
  rw [hbase, hl]
  exact h k

/-- Only a write of L[k] changes L[k] (10_state.md R38). -/
theorem writeReg_l_of_ne {r : Reg} {k : Fin 8} (other : r ≠ .l k) (v : Word) (c : Cpu) :
    (writeReg r v c).l[k] = c.l[k] := by
  cases r with
  | l j =>
    have apart : j ≠ k := fun same => other (same ▸ rfl)
    simp [writeReg, Fin.val_ne_of_ne apart]
  | ax0 | ax1 | mx0 | mx1 | ay0 | ay1 | my0 | my1 | si | se | ar | mr0 | mr1 | mr2 | sr0 | sr1 | sb => simp [writeReg]
  | i | m | astat | mstat | sstat | imask | icntl | cntr | px => rfl

/-- A register write keeps the windows: that of I[k] or L[k] recomputes BASE[k], no other touches a window (10_state.md
R24, R38). -/
theorem Cpu.windowsFit_writeReg {c : Cpu} (h : c.WindowsFit) (r : Reg) (v : Word) : (writeReg r v c).WindowsFit := by
  intro k
  have bases := writeReg_bases r v c k
  by_cases window : r = .i k ∨ r = .l k
  · simp only [window, if_true] at bases
    exact bases.window_fits
  · simp only [window, if_false] at bases
    rw [bases, writeReg_l_of_ne (fun len => window (.inr len))]
    exact h k

/-- Every elementary action keeps the windows; among them the update of an index, which leaves BASE and L. -/
theorem Action.windowsFit {i : Instr} {s t : State} (act : Action i s t) (h : s.cpu.WindowsFit) :
    t.cpu.WindowsFit := by
  cases act with
  | compute f s only =>
    obtain ⟨-, -, -, l, base, -⟩ := (onlyCompute_iff _ _).mp only
    exact Cpu.windowsFit_of_eq h base l
  | regWrite slot v =>
    cases valid : regAt slot with
    | some r => rw [regWrite_some valid]; exact Cpu.windowsFit_writeReg h r v
    | none => rw [regWrite_none valid]; exact h
  | jump | setCntr | setMode | setPx | moveIndex | pcPush | pcPop | cntrPop | statPush | statPop | loopPush | loopPop =>
    exact Cpu.windowsFit_of_eq h rfl rfl
  | dmRead | pmRead | dmWrite | pmWrite => exact h

/-- The entry of an interrupt has nothing to do with the address generators (60_exceptions.md R317). -/
theorem windowsFit_takeInterrupt {s : State} (h : s.cpu.WindowsFit) (n : Fin Config.numIrq) :
    (takeInterrupt n s).cpu.WindowsFit := Cpu.windowsFit_of_eq h rfl rfl

theorem windowsFit_evaluateInterrupts {s : State} (h : s.cpu.WindowsFit) :
    (evaluateInterrupts s).cpu.WindowsFit := by
  rcases evaluateInterrupts_cases s with ⟨n, -, -, taken⟩ | ⟨-, kept⟩
  · rw [taken]; exact windowsFit_takeInterrupt h n
  · rwa [kept]

theorem windowsFit_retire {s : State} (h : s.cpu.WindowsFit) : (retire s).cpu.WindowsFit := by
  rcases retire_cases s with ⟨-, kept⟩ | ⟨-, evaluated⟩
  · rwa [kept]
  · rw [evaluated]; exact windowsFit_evaluateInterrupts h

/-- Settles O10: every action of the step keeps the windows, and so does the retirement. -/
theorem stepKeepsWindowsInside : Obligations.StepKeepsWindowsInside := by
  unfold Obligations.StepKeepsWindowsInside
  intro s t fit hstep
  obtain ⟨u, retired, chain⟩ := step_performs s
  obtain rfl : retire u = t := Host.Outcome.next.inj (retired.symm.trans hstep)
  have fetched : (fetchWord s).2.cpu.WindowsFit := fit
  exact windowsFit_retire (chain.keeps (P := fun u => u.cpu.WindowsFit) Action.windowsFit fetched)

/-! ### The update of an index (41_dag_memory.md R140) -/

/-- The index of the updated slot. -/
theorem Cpu.dagUpdate_index (k m : Fin 8) (c : Cpu) :
    (c.dagUpdate k m).i[k] = dagNext c.i[k] c.base[k] c.l[k] c.m[m] := by
  simp [Cpu.dagUpdate_i]

/-- The update is the target of R140 cut to 14 bits. -/
theorem dagNext_eq_ofInt (index base len modifier : Addr) :
    dagNext index base len modifier =
      BitVec.ofInt 14 (dagTarget index.toNat base.toNat len.toNat modifier.toInt) := rfl

theorem indexMoved_dagUpdate (k m : Fin 8) (c : Cpu) : IndexMoved k m c (c.dagUpdate k m) where
  rest := rfl
  moved := by rw [Cpu.dagUpdate_index, dagNext_eq_ofInt]
  others j other := by simp [Cpu.dagUpdate_i, Fin.val_ne_of_ne (Ne.symm other)]

/-- An integer of the address space is kept by the cut to 14 bits. -/
theorem toNat_ofInt_addr {n : Int} (nonneg : 0 ≤ n) (below : n < 16384) : ((BitVec.ofInt 14 n).toNat : Int) = n := by
  rw [BitVec.toNat_ofInt]
  omega

/-- One correction is enough: from inside the window a move by at most the length reaches at most one length beyond it
(41_dag_memory.md R143). -/
theorem dagTarget_in_window {i base len : Nat} {modifier : Int} (above : base ≤ i) (below : i < base + len)
    (forward : modifier ≤ len) (backward : -(len : Int) ≤ modifier) :
    base ≤ dagTarget i base len modifier ∧ dagTarget i base len modifier < base + len := by
  unfold dagTarget
  split_ifs with under past <;> omega

/-- Settles O35: the target lies in the window, and the window in the address space, so the cut to 14 bits keeps it. -/
theorem indexStaysInItsWindow : Obligations.IndexStaysInItsWindow := by
  unfold Obligations.IndexStaysInItsWindow
  intro k m c fit _ above below forward backward
  obtain ⟨low, high⟩ := dagTarget_in_window above below forward backward
  have kept := toNat_ofInt_addr (le_trans (Int.natCast_nonneg _) low) (lt_of_lt_of_le high (mod_cast fit k))
  rw [← dagNext_eq_ofInt, ← Cpu.dagUpdate_index] at kept
  show c.base[k].toNat ≤ (c.dagUpdate k m).i[k].toNat ∧ (c.dagUpdate k m).i[k].toNat < c.base[k].toNat + c.l[k].toNat
  omega

/-- With length 0 a correction adds nothing. -/
theorem dagTarget_length_zero (i base : Nat) (modifier : Int) : dagTarget i base 0 modifier = i + modifier := by
  simp [dagTarget]

/-- Settles O36: no correction moves the target, and the sum modulo 2^14 is that of the signed modifier. -/
theorem lengthZeroIsLinear : Obligations.LengthZeroIsLinear := by
  unfold Obligations.LengthZeroIsLinear
  intro k m c zero
  have len : c.l[k].toNat = 0 := by rw [zero]; rfl
  rw [Cpu.dagUpdate_index, dagNext_eq_ofInt, len, dagTarget_length_zero, BitVec.ofInt_add, BitVec.ofInt_natCast,
    BitVec.ofNat_toNat, BitVec.setWidth_eq, BitVec.ofInt_toInt]

/-- Settles O34: MODIFY is the update of the index, on the Machine State alone. -/
theorem modifyMovesTheIndex : Obligations.ModifyMovesTheIndex := by
  unfold Obligations.ModifyMovesTheIndex
  exact fun g i m s => ⟨_, rfl, onlyCpu_onCpu _ s, indexMoved_dagUpdate _ _ s.cpu⟩

/-! ### The address of an access (41_dag_memory.md R141) -/

theorem Cpu.dmAddress_reversed {k : Fin 8} {c : Cpu} (dag1 : k.val < 4) (reverse : c.bitRev = true) :
    c.dmAddress k = rev14 c.i[k] := by
  simp [Cpu.dmAddress, dag1, reverse]

theorem Cpu.dmAddress_plain {k : Fin 8} {c : Cpu} (plain : 4 ≤ k.val ∨ c.bitRev = false) :
    c.dmAddress k = c.i[k] := by
  unfold Cpu.dmAddress
  rcases plain with dag2 | off
  · simp [Nat.not_lt_of_le dag2]
  · simp [off]

/-- Settles O37: bit-reversed in the one case, the index in every other. -/
theorem bitReversedAddress : Obligations.BitReversedAddress := by
  unfold Obligations.BitReversedAddress
  refine fun k c => ⟨fun dag1 reverse j hj => ?_, Cpu.dmAddress_plain, rfl⟩
  rw [Cpu.dmAddress_reversed dag1 reverse, rev14_getLsbD _ j hj]

/-! ### Stores to data memory (41_dag_memory.md R142, R149, R150) -/

/-- Data memory with one word replaced, whatever became of the rest of the state. -/
theorem dmStored_of_dm_eq {a : Addr} {v : Word} {s t : State} (replaced : t.dm = s.dm.setDmWord a v) :
    DmStored a v s t where
  stored := by rw [replaced, Memory.dmWord_setDmWord, if_pos rfl]
  others k high low := by rw [replaced, Memory.readByte_setDmWord, if_neg low, if_neg high]

section Stores
variable (k m : Fin 8) (a : Addr) (v : Word) (s : State)

theorem dmStored_dmWrite : DmStored a v s (dmWrite a v s) := dmStored_of_dm_eq rfl

theorem oneAccess_dmWrite : OneAccess (.dmWrite a v) s (dmWrite a v s) := ⟨rfl, rfl, rfl, rfl⟩

theorem dmStored_dmWriteDag : DmStored (s.cpu.dmAddress k) v s (dmWriteDag k m v s) := dmStored_of_dm_eq rfl

theorem oneAccess_dmWriteDag : OneAccess (.dmWrite (s.cpu.dmAddress k) v) s (dmWriteDag k m v s) :=
  ⟨rfl, rfl, rfl, rfl⟩

end Stores

/-- Settles O38: the one is a write to data memory, the other a write through a generator. -/
theorem plainStores : Obligations.PlainStores := by
  unfold Obligations.PlainStores
  refine ⟨fun addr src s => ⟨_, rfl, ?_⟩, fun g data i m s => ⟨_, rfl, ?_⟩⟩
  · exact ⟨dmStored_dmWrite addr _ s, fun _ => rfl, rfl, oneAccess_dmWrite addr _ s⟩
  · exact ⟨dmStored_dmWriteDag _ _ data s, fun _ => rfl, indexMoved_dagUpdate _ _ s.cpu,
      oneAccess_dmWriteDag _ _ data s⟩

end Sys2Proof.Machine
end

/-! # Stack control

What a pop does to its stack and to SSTAT, and the stack control instruction: three pops, each on its own stack and its
own two bits of SSTAT, and then the action on the status stack.
-/
section
namespace Sys2Proof.Machine

/-! ### Pops (10_state.md R43) -/

section Pop
variable {α : Type} {n : Nat} (st : HwStack α n)

theorem HwStack.popped_pop : Popped st st.pop := ⟨rfl, rfl⟩

theorem HwStack.delivers_top [NeZero n] : Delivers st st.top := Vector.getElem?_eq_getElem _

end Pop

theorem popFlags_sstatPop {e : Nat} (he : e < 8) (sp : Nat) (sstat : BitVec 8) :
    PopFlags e sp sstat (sstatPop e sp sstat) where
  emptyBit := by
    unfold sstatPop
    by_cases last : sp = 1 <;> simp [last, he]
  overBit := sstatPop_other e (e + 1) sp sstat (by omega)

theorem stackFlagsKept_sstatPop {e j : Nat} (below : e ≠ j) (above : e ≠ j + 1) (sp : Nat) (sstat : BitVec 8) :
    StackFlagsKept j sstat (sstatPop e sp sstat) :=
  ⟨sstatPop_other e j sp sstat below, sstatPop_other e (j + 1) sp sstat above⟩

/-! ### The flags of one stack while others are acted on (10_state.md R31) -/

section Flags
variable {e sp : Nat} {full : Bool} {f g h : BitVec 8}

theorem StackFlagsKept.refl (e : Nat) (f : BitVec 8) : StackFlagsKept e f f := ⟨rfl, rfl⟩

theorem StackFlagsKept.trans (first : StackFlagsKept e f g) (second : StackFlagsKept e g h) : StackFlagsKept e f h :=
  ⟨second.1.trans first.1, second.2.trans first.2⟩

theorem PopFlags.of_kept_before (kept : StackFlagsKept e f g) (pop : PopFlags e sp g h) : PopFlags e sp f h := by
  obtain ⟨emptyKept, overKept⟩ := kept
  exact ⟨emptyKept ▸ pop.emptyBit, overKept ▸ pop.overBit⟩

theorem PopFlags.kept_after (pop : PopFlags e sp f g) (kept : StackFlagsKept e g h) : PopFlags e sp f h :=
  ⟨kept.1.trans pop.emptyBit, kept.2.trans pop.overBit⟩

theorem PushFlags.of_kept_before (kept : StackFlagsKept e f g) (push : PushFlags e full g h) :
    PushFlags e full f h := by
  obtain ⟨emptyKept, overKept⟩ := kept
  exact ⟨emptyKept ▸ push.emptyBit, overKept ▸ push.overBit⟩

end Flags

/-! ### The three pops (42_stack_control.md R160) -/

/-- SSTAT after a field that may ask for a pop. -/
def sstatPopIf (asked : Bool) (e sp : Nat) (sstat : BitVec 8) : BitVec 8 :=
  if asked then sstatPop e sp sstat else sstat

theorem stackFlagsKept_sstatPopIf {e j : Nat} (asked : Bool) (below : e ≠ j) (above : e ≠ j + 1) (sp : Nat)
    (sstat : BitVec 8) : StackFlagsKept j sstat (sstatPopIf asked e sp sstat) := by
  cases asked with
  | true => exact stackFlagsKept_sstatPop below above sp sstat
  | false => exact .refl j sstat

/-- What becomes of a stack, and of its bits of SSTAT, under a field that may ask for a pop. -/
def PoppedIf {α : Type} {n : Nat} (asked : Bool) (e : Nat) (a b : HwStack α n) (f g : BitVec 8) : Prop :=
  if asked then Popped a b ∧ PopFlags e a.sp.val f g else b = a ∧ StackFlagsKept e f g

/-- The field's own pop, with operations before and after it that leave the bits of its stack alone. -/
theorem poppedIf_pop {α : Type} {n e : Nat} (asked : Bool) (he : e < 8) (a : HwStack α n) {f g h : BitVec 8}
    (before : StackFlagsKept e f g) (after : StackFlagsKept e (sstatPopIf asked e a.sp g) h) :
    PoppedIf asked e a (if asked then a.pop else a) f h := by
  cases asked with
  | true => exact ⟨a.popped_pop, ((popFlags_sstatPop he a.sp g).of_kept_before before).kept_after after⟩
  | false => exact ⟨rfl, before.trans after⟩

/-- The Machine State after the three fields that pop, stack by stack. -/
def Cpu.popFields (pp lp cp : Bool) (c : Cpu) : Cpu :=
  { c with
    pcStk := if pp then c.pcStk.pop else c.pcStk
    loopStk := if lp then c.loopStk.pop else c.loopStk
    cntrStk := if cp then c.cntrStk.pop else c.cntrStk
    cntr := if cp then c.cntrStk.top else c.cntr
    sstat := sstatPopIf cp 2 c.cntrStk.sp (sstatPopIf lp 6 c.loopStk.sp (sstatPopIf pp 0 c.pcStk.sp c.sstat)) }

/-- The pops of the instruction, one after the other, act on different stacks. -/
theorem onlyIf_pops (pp lp cp : Bool) (s : State) :
    onlyIf cp (onCpu Cpu.cntrPop) (onlyIf lp (onCpu Cpu.loopPop) (onlyIf pp (onCpu Cpu.pcPop) s)) =
      onCpu (Cpu.popFields pp lp cp) s := by
  cases pp <;> cases lp <;> cases cp <;> rfl

/-! ### The status stack action (42_stack_control.md R160) -/

theorem statusStackAction_none {spp : BitVec 2} (notPush : spp ≠ 2) (notPop : spp ≠ 3) (s : State) :
    statusStackAction spp s = s := by
  have unasked : spp.getLsbD 1 = false := by
    revert spp
    decide
  unfold statusStackAction
  rw [unasked]
  rfl

/-- The status stack action judged on the Machine State before and after it. -/
structure StatusControlled (spp : BitVec 2) (c d : Cpu) : Prop where
  rest : d = { c with
    statStk := d.statStk, mstat := d.mstat, imask := d.imask, astat := d.astat, sstat := d.sstat }
  pcFlags : StackFlagsKept 0 c.sstat d.sstat
  counterFlags : StackFlagsKept 2 c.sstat d.sstat
  loopFlags : StackFlagsKept 6 c.sstat d.sstat
  registers : spp ≠ 3 → d.mstat = c.mstat ∧ d.imask = c.imask ∧ d.astat = c.astat
  pops : spp = 3 → Popped c.statStk d.statStk ∧ Delivers c.statStk ⟨d.mstat, d.imask, d.astat⟩ ∧
    PopFlags 4 c.statStk.sp.val c.sstat d.sstat
  pushes : spp = 2 → Pushed ⟨c.mstat, c.imask, c.astat⟩ c.statStk d.statStk ∧
    PushFlags 4 (decide (c.statStk.sp.val = 4)) c.sstat d.sstat
  unasked : spp ≠ 2 → spp ≠ 3 → d.statStk = c.statStk ∧ StackFlagsKept 4 c.sstat d.sstat

theorem statusControlled_statPop (c : Cpu) : StatusControlled 3 c c.statPop where
  rest := rfl
  pcFlags := stackFlagsKept_sstatPop (by decide) (by decide) _ _
  counterFlags := stackFlagsKept_sstatPop (by decide) (by decide) _ _
  loopFlags := stackFlagsKept_sstatPop (by decide) (by decide) _ _
  registers other := absurd rfl other
  pops _ := ⟨c.statStk.popped_pop, c.statStk.delivers_top, popFlags_sstatPop (by decide) _ _⟩
  pushes push := absurd push (by decide)
  unasked _ other := absurd rfl other

theorem statusControlled_statPush (c : Cpu) : StatusControlled 2 c c.statPush where
  rest := rfl
  pcFlags := stackFlagsKept_sstatPush (by decide) _ _
  counterFlags := stackFlagsKept_sstatPush (by decide) _ _
  loopFlags := stackFlagsKept_sstatPush (by decide) _ _
  registers _ := ⟨rfl, rfl, rfl⟩
  pops pop := absurd pop (by decide)
  pushes _ := ⟨c.statStk.pushed_push _, pushFlags_sstatPush c.statStk _ 4 (by decide) _⟩
  unasked other := absurd rfl other

theorem statusControlled_none {spp : BitVec 2} (notPush : spp ≠ 2) (notPop : spp ≠ 3) (c : Cpu) :
    StatusControlled spp c c where
  rest := rfl
  pcFlags := .refl _ _
  counterFlags := .refl _ _
  loopFlags := .refl _ _
  registers _ := ⟨rfl, rfl, rfl⟩
  pops pop := absurd pop notPop
  pushes push := absurd push notPush
  unasked _ _ := ⟨rfl, .refl _ _⟩

/-- The action changes the Machine State, and asks for an evaluation when it is a pop (60_exceptions.md R316). -/
theorem statusStackAction_spec (spp : BitVec 2) (s : State) : ∃ d, StatusControlled spp s.cpu d ∧
    statusStackAction spp s = { s with cpu := d, evalReq := s.evalReq || spp == 3 } := by
  by_cases pop : spp = 3
  · subst pop
    exact ⟨_, statusControlled_statPop s.cpu, congrArg (fun asks => { s with cpu := s.cpu.statPop, evalReq := asks })
      (Bool.or_true s.evalReq).symm⟩
  rw [beq_eq_false_iff_ne.mpr pop, Bool.or_false]
  by_cases push : spp = 2
  · subst push
    exact ⟨_, statusControlled_statPush s.cpu, rfl⟩
  · exact ⟨_, statusControlled_none push pop s.cpu, statusStackAction_none push pop s⟩

/-! ### The instruction -/

section Fields
variable {pp lp cp : Bool} {spp : BitVec 2} {c d : Cpu} (status : StatusControlled spp (c.popFields pp lp cp) d)
include status

theorem StatusControlled.pcStk_eq : d.pcStk = if pp then c.pcStk.pop else c.pcStk :=
  congrArg Cpu.pcStk status.rest

theorem StatusControlled.loopStk_eq : d.loopStk = if lp then c.loopStk.pop else c.loopStk :=
  congrArg Cpu.loopStk status.rest

theorem StatusControlled.cntrStk_eq : d.cntrStk = if cp then c.cntrStk.pop else c.cntrStk :=
  congrArg Cpu.cntrStk status.rest

theorem StatusControlled.cntr_eq : d.cntr = if cp then c.cntrStk.top else c.cntr := congrArg Cpu.cntr status.rest

/-- The PC field is followed by the loop field, the counter field and the status stack action. -/
theorem StatusControlled.pcField : PoppedIf pp 0 c.pcStk d.pcStk c.sstat d.sstat := by
  rw [status.pcStk_eq]
  exact poppedIf_pop pp (by decide) _ (.refl 0 _)
    (((stackFlagsKept_sstatPopIf lp (by decide) (by decide) _ _).trans
      (stackFlagsKept_sstatPopIf cp (by decide) (by decide) _ _)).trans status.pcFlags)

/-- The loop field follows the PC field; the counter field and the status stack action come after it. -/
theorem StatusControlled.loopField : PoppedIf lp 6 c.loopStk d.loopStk c.sstat d.sstat := by
  rw [status.loopStk_eq]
  exact poppedIf_pop lp (by decide) _ (stackFlagsKept_sstatPopIf pp (by decide) (by decide) _ _)
    ((stackFlagsKept_sstatPopIf cp (by decide) (by decide) _ _).trans status.loopFlags)

/-- The counter field follows the PC and loop fields; the status stack action comes after it. -/
theorem StatusControlled.counterField : PoppedIf cp 2 c.cntrStk d.cntrStk c.sstat d.sstat := by
  rw [status.cntrStk_eq]
  exact poppedIf_pop cp (by decide) _
    ((stackFlagsKept_sstatPopIf pp (by decide) (by decide) _ _).trans
      (stackFlagsKept_sstatPopIf lp (by decide) (by decide) _ _)) status.counterFlags

/-- What no field is for is as it was. -/
theorem StatusControlled.rest_popFields : d = { c with
    pcStk := d.pcStk, loopStk := d.loopStk, cntrStk := d.cntrStk, cntr := d.cntr, statStk := d.statStk,
    mstat := d.mstat, imask := d.imask, astat := d.astat, sstat := d.sstat } := by
  rw [status.pcStk_eq, status.loopStk_eq, status.cntrStk_eq, status.cntr_eq]
  exact status.rest

end Fields

theorem Cpu.popFields_statusFlags (pp lp cp : Bool) (c : Cpu) :
    StackFlagsKept 4 c.sstat (c.popFields pp lp cp).sstat :=
  ((stackFlagsKept_sstatPopIf pp (by decide) (by decide) _ _).trans
    (stackFlagsKept_sstatPopIf lp (by decide) (by decide) _ _)).trans
    (stackFlagsKept_sstatPopIf cp (by decide) (by decide) _ _)

/-- Settles O50: each field acts on its own stack and its own bits of SSTAT, which the operations before and after it
leave alone. -/
theorem stackControl : Obligations.StackControl := by
  unfold Obligations.StackControl
  intro pp lp cp spp s
  obtain ⟨d, status, done⟩ := statusStackAction_spec spp (onCpu (Cpu.popFields pp lp cp) s)
  have kept := s.cpu.popFields_statusFlags pp lp cp
  have run : exec (.stackControl pp lp cp spp) s = .next { s with cpu := d, evalReq := s.evalReq || spp == 3 } :=
    congrArg Host.Outcome.next ((congrArg _ (onlyIf_pops pp lp cp s)).trans done)
  refine ⟨_, run, fun _ => rfl, fun _ => rfl, rfl, rfl, rfl, rfl, status.rest_popFields, status.pcField,
    status.loopField, ?counter, status.registers, fun pop => ?pop, fun push => ?push, fun notPush notPop => ?unasked⟩
  case counter =>
    cases cp with
    | true =>
      obtain ⟨popped, flags⟩ := status.counterField
      exact ⟨popped, status.cntr_eq ▸ s.cpu.cntrStk.delivers_top, flags⟩
    | false =>
      obtain ⟨stack, flags⟩ := status.counterField
      exact ⟨stack, status.cntr_eq, flags⟩
  case pop =>
    obtain ⟨popped, delivered, flags⟩ := status.pops pop
    exact ⟨popped, delivered, flags.of_kept_before kept⟩
  case push =>
    obtain ⟨pushed, flags⟩ := status.pushes push
    exact ⟨pushed, flags.of_kept_before kept⟩
  case unasked =>
    obtain ⟨stack, flags⟩ := status.unasked notPush notPop
    exact ⟨stack, kept.trans flags⟩

end Sys2Proof.Machine
end

/-! # The ALU

The flag formulas of R171 read bits of a 17-bit pattern; they are proved once to give the exact signed overflow and the
unsigned carry. After that every function, arithmetic or logical, answers in one form, `AluOut.ofResult`, and what an
ALU instruction leaves in the machine is proved once for that form.
-/
section
namespace Sys2Proof.Machine

/-- Settles O13: each code is an entry of its table. -/
theorem operandTables : Obligations.OperandTables := by
  unfold Obligations.OperandTables
  intro c
  exact ⟨⟨rfl, rfl, rfl, rfl, rfl, rfl, rfl, rfl⟩, ⟨rfl, rfl, rfl, rfl⟩, ⟨rfl, rfl, rfl, rfl, rfl, rfl, rfl, rfl⟩,
    ⟨rfl, rfl, rfl, rfl⟩, ⟨rfl, rfl, rfl, rfl, rfl, rfl, rfl, rfl⟩⟩

/-! ### The outcome in integers (43_alu.md R171) -/

/-- An integer outside the range of a signed 16-bit number. -/
def overflows (e : Int) : Bool := decide (e < -32768 ∨ 32767 < e)

/-- The carry into a sum or a difference, as a number; `Cpu.carry` is this of AC. -/
def carryIn (cin : Bool) : Int := if cin then 1 else 0

/-- The outcome with result `r`, overflow `v` and carry `k`: zero and sign are those of the result. -/
def AluOut.ofResult (r : Word) (v k : Bool) : AluOut := ⟨r, decide (r = 0), r.msb, v, k⟩

theorem aluLogic_eq (r : Word) : aluLogic r = .ofResult r false false := by
  simp [aluLogic, AluOut.ofResult, BitVec.msb_eq_getLsbD_last, beq_eq_decide]

/-- A word read as a signed and as an unsigned number: the two differ by 2^16 when the sign bit is set. -/
theorem word_signed (a : Word) :
    (a.msb = false ∧ a.toInt = a.toNat ∧ a.toNat < 32768) ∨
    (a.msb = true ∧ a.toInt = a.toNat - 65536 ∧ 32768 ≤ a.toNat) := by
  cases sign : a.msb with
  | false => exact .inl ⟨rfl, BitVec.toInt_eq_toNat_of_msb sign, by simpa [BitVec.msb_eq_decide] using sign⟩
  | true =>
    exact .inr ⟨rfl, by rw [BitVec.toInt_eq_msb_cond, sign]; rfl, by simpa [BitVec.msb_eq_decide] using sign⟩

/-! ### Sums and differences are exact (43_alu.md R171) -/

theorem getLsbD_15_ofInt (u : Int) : (BitVec.ofInt 17 u).getLsbD 15 = decide (u / 32768 % 2 = 1) := by
  rw [← BitVec.testBit_toNat, Nat.testBit_eq_decide_div_mod_eq, BitVec.toNat_ofInt, decide_eq_decide]
  omega

theorem getLsbD_16_ofInt (u : Int) : (BitVec.ofInt 17 u).getLsbD 16 = decide (u / 65536 % 2 = 1) := by
  rw [← BitVec.testBit_toNat, Nat.testBit_eq_decide_div_mod_eq, BitVec.toNat_ofInt, decide_eq_decide]
  omega

/-- The outcome that R171 reads off the 17-bit pattern `r` of a sum or difference of `a` and `b`, with carry `k`. -/
def AluOut.ofPattern (a b : Word) (r : BitVec 17) (k : Bool) : AluOut :=
  { res := r.setWidth 16, z := r.setWidth 16 == 0, n := r.getLsbD 15,
    v := a.getLsbD 15 ^^ b.getLsbD 15 ^^ r.getLsbD 15 ^^ r.getLsbD 16, c := k }

/-- The signed value `e` and the unsigned value `u` of an operation on `a` and `b` agree in 16 bits; in 17 bits they are
apart just when the signs of the operands differ. -/
structure ExactValues (a b : Word) (e u : Int) : Prop where
  low : -65536 ≤ e
  high : e < 65536
  apart : (e - u) % 131072 = if a.msb = b.msb then 0 else 65536

section Exact
variable {a b : Word} {e u : Int} (values : ExactValues a b e u)
include values

theorem ExactValues.setWidth_ofInt : (BitVec.ofInt 17 u).setWidth 16 = BitVec.ofInt 16 e := by
  have apart := values.apart
  apply BitVec.eq_of_toNat_eq
  simp only [BitVec.toNat_setWidth, BitVec.toNat_ofInt]
  split at apart <;> omega

/-- V compares bits 15 and 16 of the signed value: bit 16 of the unsigned one is turned over where the signs differ. -/
theorem ExactValues.overflow :
    (a.getLsbD 15 ^^ b.getLsbD 15 ^^ (BitVec.ofInt 17 u).getLsbD 15 ^^ (BitVec.ofInt 17 u).getLsbD 16) =
      overflows e := by
  obtain ⟨low, high, apart⟩ := values
  have signs : (a.getLsbD 15 ^^ b.getLsbD 15) = !decide (a.msb = b.msb) := by
    rw [BitVec.msb_eq_getLsbD_last a, BitVec.msb_eq_getLsbD_last b]
    cases a.getLsbD 15 <;> cases b.getLsbD 15 <;> rfl
  rw [signs, getLsbD_15_ofInt, getLsbD_16_ofInt, overflows, Bool.eq_iff_iff]
  split at apart
  next same =>
    simp [same]
    omega
  next differ =>
    simp [differ]
    omega

theorem ExactValues.outcome (k : Bool) :
    AluOut.ofPattern a b (BitVec.ofInt 17 u) k = .ofResult (BitVec.ofInt 16 e) (overflows e) k := by
  have sign : (BitVec.ofInt 17 u).getLsbD 15 = (BitVec.ofInt 16 e).msb := by
    rw [← values.setWidth_ofInt, BitVec.msb_eq_getLsbD_last, BitVec.getLsbD_setWidth]
    rfl
  rw [AluOut.ofPattern, values.overflow, values.setWidth_ofInt, sign, beq_eq_decide]
  rfl

end Exact

theorem ofInt_toNat (w : Nat) (a : Word) : BitVec.ofInt w a.toNat = a.setWidth w := by
  rw [BitVec.ofInt_natCast, BitVec.ofNat_toNat]

theorem setWidth_17_ofBool (cin : Bool) : (BitVec.ofBool cin).setWidth 17 = BitVec.ofInt 17 (carryIn cin) := by
  cases cin <;> rfl

theorem carryIn_cases (cin : Bool) : carryIn cin = 0 ∨ carryIn cin = 1 := by cases cin <;> simp [carryIn]

theorem exactValues_add (a b : Word) {k : Int} (cin : k = 0 ∨ k = 1) :
    ExactValues a b (a.toInt + b.toInt + k) (a.toNat + b.toNat + k) := by
  have ha := word_signed a
  have hb := word_signed b
  exact ⟨by omega, by omega, by grind⟩

theorem exactValues_sub (a b : Word) {k : Int} (cin : k = 0 ∨ k = 1) :
    ExactValues a b (a.toInt - b.toInt + k - 1) (a.toNat - b.toNat + k - 1) := by
  have ha := word_signed a
  have hb := word_signed b
  exact ⟨by omega, by omega, by grind⟩

theorem aluAdd_eq (a b : Word) (cin : Bool) : aluAdd a b cin =
    .ofResult (BitVec.ofInt 16 (a.toInt + b.toInt + carryIn cin)) (overflows (a.toInt + b.toInt + carryIn cin))
      (decide (65536 ≤ (a.toNat : Int) + b.toNat + carryIn cin)) := by
  have pattern : a.setWidth 17 + b.setWidth 17 + (BitVec.ofBool cin).setWidth 17 =
      BitVec.ofInt 17 (a.toNat + b.toNat + carryIn cin) := by
    rw [← ofInt_toNat, ← ofInt_toNat, setWidth_17_ofBool, BitVec.ofInt_add, BitVec.ofInt_add]
  have cin01 := carryIn_cases cin
  have carry : (BitVec.ofInt 17 (a.toNat + b.toNat + carryIn cin)).getLsbD 16 =
      decide (65536 ≤ (a.toNat : Int) + b.toNat + carryIn cin) := by
    rw [getLsbD_16_ofInt, decide_eq_decide]
    omega
  have values := exactValues_add a b cin01
  have shape : aluAdd a b cin = .ofPattern a b _ _ := rfl
  rw [shape, pattern, values.outcome, carry]

theorem aluSub_eq (a b : Word) (cin : Bool) : aluSub a b cin =
    .ofResult (BitVec.ofInt 16 (a.toInt - b.toInt + carryIn cin - 1)) (overflows (a.toInt - b.toInt + carryIn cin - 1))
      (decide (0 ≤ (a.toNat : Int) - b.toNat + carryIn cin - 1)) := by
  have pattern : a.setWidth 17 - b.setWidth 17 + (BitVec.ofBool cin).setWidth 17 - 1 =
      BitVec.ofInt 17 (a.toNat - b.toNat + carryIn cin - 1) := by
    rw [← ofInt_toNat, ← ofInt_toNat, setWidth_17_ofBool]
    simp only [sub_eq_add_neg, BitVec.ofInt_add, BitVec.ofInt_neg]
    rfl
  have cin01 := carryIn_cases cin
  have carry : (!(BitVec.ofInt 17 (a.toNat - b.toNat + carryIn cin - 1)).getLsbD 16) =
      decide (0 ≤ (a.toNat : Int) - b.toNat + carryIn cin - 1) := by
    rw [getLsbD_16_ofInt, ← decide_not, decide_eq_decide]
    omega
  have values := exactValues_sub a b cin01
  have shape : aluSub a b cin = .ofPattern a b _ _ := rfl
  rw [shape, pattern, values.outcome, carry]

/-- Settles O14: the outcome of a sum or a difference is that of its exact values, and each flag is set by itself. -/
theorem aluFlagFormulas : Obligations.AluFlagFormulas := by
  unfold Obligations.AluFlagFormulas
  refine ⟨fun a b cin => ⟨?sum, ?difference⟩, aluLogic_eq, fun o c => ?flags⟩
  case sum =>
    rw [aluAdd_eq]
    exact ⟨rfl, rfl, rfl, decide_eq_true_iff, decide_eq_true_iff⟩
  case difference =>
    rw [aluSub_eq]
    exact ⟨rfl, rfl, rfl, decide_eq_true_iff, decide_eq_true_iff⟩
  case flags =>
    obtain ⟨az, an, ac, av, others⟩ := c.setAluFlags_flags o
    refine ⟨rfl, az, an, ac, av, fun k _ other => others k ?_⟩
    have outside : k ≠ 0 ∧ k ≠ 1 ∧ k ≠ 2 ∧ k ≠ 3 := by simpa using other
    omega

/-! ### What the functions answer (43_alu.md R173 to R188) -/

/-- The one overflow of ABS is that of -32768, whose two's complement is itself. -/
theorem aluAbs_eq (x : Word) : aluAbs x =
    .ofResult (BitVec.ofInt 16 (if x.toInt < 0 then -x.toInt else x.toInt))
      (overflows (if x.toInt < 0 then -x.toInt else x.toInt)) false := by
  have least : (x == 0x8000) = decide (x.toNat = 32768) := by
    rw [beq_eq_decide, decide_eq_decide, ← BitVec.toNat_inj]
    rfl
  rw [aluAbs, AluOut.ofResult, least, ← BitVec.msb_eq_getLsbD_last x, beq_eq_decide]
  rcases word_signed x with ⟨sign, signed, range⟩ | ⟨sign, signed, range⟩
  · have other : decide (x.toNat = 32768) = false := by simp; omega
    have fits : overflows x.toInt = false := by simp [overflows]; omega
    simp [sign, other, fits, show ¬x.toInt < 0 by omega]
  · have outside : overflows (-x.toInt) = decide (x.toNat = 32768) := by rw [overflows, decide_eq_decide]; omega
    have minus : (-x).msb = decide (x.toNat = 32768) := by
      rw [BitVec.msb_eq_decide, BitVec.toNat_neg, decide_eq_decide]
      omega
    simp [sign, outside, minus, BitVec.ofInt_neg, show x.toInt < 0 by omega]

/-- An arithmetic function answers with its exact value. -/
theorem aluCompute_arithmetic {fn : AluFn} {x y : Word} {carry : Bool} {e u : Int}
    (signed : aluExact fn x.toInt y.toInt (carryIn carry) = some e)
    (unsigned : aluExact fn x.toNat y.toNat (carryIn carry) = some u) :
    aluCompute fn x y carry = .ofResult (BitVec.ofInt 16 e) (overflows e) (aluCarry fn u) := by
  cases fn with
  | incY | addC | add =>
    cases signed; cases unsigned
    simp [aluCompute, aluAdd_eq, aluCarry, carryIn]
  | negY | subC | sub | decY | rsub | rsubC =>
    cases signed; cases unsigned
    simp [aluCompute, aluSub_eq, aluCarry, carryIn]
  | absX =>
    cases signed
    exact aluAbs_eq x
  | passY | notY | notX | and | or | xor => cases signed

theorem xor_ones (v : Word) : v ^^^ 0xFFFF = ~~~v := BitVec.xor_allOnes

theorem aluCompute_logic {fn : AluFn} {x y r : Word} (carry : Bool)
    (bits : ∀ j, j < 16 → aluLogicBit fn (x.getLsbD j) (y.getLsbD j) = some (r.getLsbD j)) :
    aluCompute fn x y carry = .ofResult r false false := by
  rw [← aluLogic_eq]
  cases fn with
  | passY | and | or | xor =>
    refine congrArg aluLogic (BitVec.eq_of_getLsbD_eq fun j hj => ?_)
    simpa [hj] using Option.some.inj (bits j hj)
  | notY | notX =>
    refine congrArg aluLogic ((xor_ones _).trans (BitVec.eq_of_getLsbD_eq fun j hj => ?_))
    simpa [hj] using Option.some.inj (bits j hj)
  | incY | addC | add | negY | subC | sub | decY | rsub | rsubC | absX => cases bits 0 (by decide)

/-! ### An ALU operation (43_alu.md R170 to R188) -/

@[simp] theorem Cpu.setAbsSign_flag (c : Cpu) (fn : AluFn) (x : Word) (k : Nat) :
    (c.setAbsSign fn x).flag k = if fn = .absX ∧ k = bitAS then x.msb else c.flag k := by
  cases fn with
  | absX =>
    by_cases as : k = bitAS
    · subst as
      simp [Cpu.setAbsSign, BitVec.msb_eq_getLsbD_last, bitAS]
    · simp [Cpu.setAbsSign, as, Ne.symm as]
  | passY | incY | addC | add | notY | negY | subC | sub | decY | rsub | rsubC | notX | and | or | xor =>
    simp [Cpu.setAbsSign]

theorem Cpu.aluWrite_live (z : Dest) (o : AluOut) (c : Cpu) : (c.aluWrite z o).live =
    if z = .primary then { c.live with ar := if c.arSat && o.v then (if o.c then 0x8000 else 0x7FFF) else o.res }
    else { c.live with af := o.res } := by
  cases z <;> simp [Cpu.aluWrite]

/-- What an ALU operation leaves, whichever function gave the outcome. -/
theorem aluDone_aluPart {fn : AluFn} {yop : BitVec 2} {xop : BitVec 3} {c : Cpu} {r : Word} {v k : Bool} (z : Dest)
    (outcome : c.aluResult fn yop xop = .ofResult r v k) :
    AluDone z r v k (if fn = .absX then (aluX xop c).msb else c.flag bitAS) c (aluPart z fn yop xop c) := by
  obtain ⟨az, an, ac, av, others⟩ := c.setAluFlags_flags (.ofResult r v k)
  have flag : ∀ j, (aluPart z fn yop xop c).flag j =
      if fn = .absX ∧ j = bitAS then (aluX xop c).msb else (c.setAluFlags (.ofResult r v k)).flag j := fun j => by
    simp [aluPart, outcome]
  refine ⟨onlyCompute_aluPart c z fn yop xop, fun j _ other => ?flags, ?az, ?an, ?av, ?ac, ?as, ?live⟩
  case flags =>
    have outside : j ≠ 0 ∧ j ≠ 1 ∧ j ≠ 2 ∧ j ≠ 3 ∧ j ≠ 4 := by simpa using other
    rw [flag, others j (by omega), if_neg (by rintro ⟨-, rfl⟩; simp at outside)]
  case az => rw [flag, az]; simp [AluOut.ofResult]
  case an => rw [flag, an]; simp [AluOut.ofResult]
  case av => rw [flag, av]; cases c.avLatch <;> simp [AluOut.ofResult, Bool.or_comm]
  case ac => rw [flag, ac]; simp [AluOut.ofResult]
  case as => rw [flag, others 4 (by decide)]; simp
  case live =>
    simp [aluPart, outcome, Cpu.aluWrite_live, AluOut.ofResult, Cpu.arSat]

theorem aluDone_arithmetic {fn : AluFn} {yop : BitVec 2} {xop : BitVec 3} {c : Cpu} {e u : Int} (z : Dest)
    (signed : aluExact fn (aluX xop c).toInt (aluY yop c).toInt c.carry = some e)
    (unsigned : aluExact fn (aluX xop c).toNat (aluY yop c).toNat c.carry = some u) :
    AluDone z (BitVec.ofInt 16 e) (overflows e) (aluCarry fn u)
      (if fn = .absX then (aluX xop c).msb else c.flag bitAS) c (aluPart z fn yop xop c) :=
  aluDone_aluPart z (aluCompute_arithmetic signed unsigned)

/-! ### The conditional form (43_alu.md R189) -/

theorem exec_condAlu (z : Dest) (fn : AluFn) (yop : BitVec 2) (xop : BitVec 3) (cond : Cond) (s : State) :
    exec (condAlu z fn yop xop cond) s = .next (whenCond cond (onCpu (aluPart z fn yop xop)) s) := by
  cases z <;> cases fn <;> rfl

theorem exec_condAlu_always (z : Dest) (fn : AluFn) (yop : BitVec 2) (xop : BitVec 3) (s : State) :
    exec (condAlu z fn yop xop .always) s = .next (onCpu (aluPart z fn yop xop) s) :=
  exec_condAlu z fn yop xop .always s

/-- An instruction that computes under a condition completes, with what the computation does (47_program_flow.md
R288). -/
theorem completesIf_compute {i : Instr} {cond : Cond} {s : State} {f : Cpu → Cpu} {done : Cpu → Cpu → Prop}
    (run : exec i s = .next (whenCond cond (onCpu f) s)) (does : ∀ c, done c (f c)) : CompletesIf i cond s done := by
  refine ⟨_, run, ?_⟩
  cases holds : (evalCond cond s.cpu).1 with
  | true =>
    rw [whenCond_true _ holds]
    exact ⟨onlyCpu_onCpu (fun c => f (evalCond cond c).2) s, nofun, fun _ => does _⟩
  | false =>
    rw [whenCond_false _ holds]
    exact ⟨onlyCpu_onCpu (fun c => (evalCond cond c).2) s, fun _ => rfl, nofun⟩

/-- Settles O15: every arithmetic function answers with its exact value. -/
theorem aluArithmeticFunctions : Obligations.AluArithmeticFunctions := by
  unfold Obligations.AluArithmeticFunctions
  intro z fn yop xop cond s
  exact completesIf_compute (exec_condAlu z fn yop xop cond s) fun c e u signed unsigned =>
    aluDone_arithmetic z signed unsigned

/-- Settles O16: every logical function answers with the bits asked for, and none of them is ABS, which writes AS. -/
theorem aluLogicalFunctions : Obligations.AluLogicalFunctions := by
  unfold Obligations.AluLogicalFunctions
  intro z fn yop xop cond s
  refine completesIf_compute (exec_condAlu z fn yop xop cond s) fun c r bits => ?_
  have notAbs : fn ≠ .absX := by
    rintro rfl
    cases bits 0 (by decide)
  simpa only [if_neg notAbs] using aluDone_aluPart z (aluCompute_logic (c.flag bitAC) bits)

/-! ### Saturation (43_alu.md R172) -/

/-- An arithmetic function on integers has a value whatever the operands. -/
theorem aluExact_total {fn : AluFn} {x y k e : Int} (known : aluExact fn x y k = some e) (x' y' : Int) :
    ∃ u, aluExact fn x' y' k = some u := by
  cases fn with
  | passY | notY | notX | and | or | xor => cases known
  | incY | addC | add | negY | subC | sub | decY | rsub | rsubC | absX => exact ⟨_, rfl⟩

/-- After an overflow the carry is the sign of the exact value: a sum of two negative numbers carries, and a difference
of a negative number and a positive one does not borrow. -/
theorem aluCarry_of_overflow {fn : AluFn} {x y : Word} {carry : Bool} {e u : Int}
    (signed : aluExact fn x.toInt y.toInt (carryIn carry) = some e)
    (unsigned : aluExact fn x.toNat y.toNat (carryIn carry) = some u) (overflow : overflows e = true) :
    aluCarry fn u = decide (e < 0) := by
  have cin := carryIn_cases carry
  have outside : e < -32768 ∨ 32767 < e := of_decide_eq_true overflow
  have hx := word_signed x
  have hy := word_signed y
  cases fn with
  | passY | notY | notX | and | or | xor => cases signed
  | absX =>
    cases signed
    simp [aluCarry]
    split <;> omega
  | incY | addC | add | negY | subC | sub | decY | rsub | rsubC =>
    cases signed; cases unsigned
    rw [aluCarry, decide_eq_decide]
    omega

/-- The clamp of R172, selected by overflow and carry, is the clamp to the range. -/
theorem saturated_toInt {e : Int} {k : Bool} (side : overflows e = true → k = decide (e < 0)) :
    (if overflows e then (if k then 0x8000 else 0x7FFF) else BitVec.ofInt 16 e : Word).toInt =
      max (-32768) (min 32767 e) := by
  cases clamped : overflows e with
  | true =>
    have outside : e < -32768 ∨ 32767 < e := of_decide_eq_true clamped
    rw [side clamped]
    by_cases negative : e < 0
    · simp [negative]; omega
    · simp [negative]; omega
  | false =>
    have inside : ¬(e < -32768 ∨ 32767 < e) := of_decide_eq_false clamped
    rw [if_neg Bool.false_ne_true, BitVec.toInt_ofInt_eq_self (by decide) (by omega) (by omega)]
    omega

/-- Settles O17: AR takes the limit that the carry selects, which is the one on the side of the overflow. -/
theorem saturatedArIsTheNearestLimit : Obligations.SaturatedArIsTheNearestLimit := by
  unfold Obligations.SaturatedArIsTheNearestLimit
  intro fn yop xop s e saturates signed
  obtain ⟨u, unsigned⟩ := aluExact_total signed (aluX xop s.cpu).toNat (aluY yop s.cpu).toNat
  refine ⟨_, exec_condAlu_always .primary fn yop xop s, ?_⟩
  show (aluPart .primary fn yop xop s.cpu).live.ar.toInt = _
  rw [(aluDone_arithmetic .primary signed unsigned).live, saturates]
  exact saturated_toInt (aluCarry_of_overflow signed unsigned)

/-! ### The conditions after a subtraction (47_program_flow.md R281) -/

/-- The sign of the result, turned over by an overflow, is the sign of the exact value. -/
theorem sign_xor_overflows {e : Int} (low : -65536 ≤ e) (high : e < 65536) :
    ((BitVec.ofInt 16 e).msb ^^ overflows e) = decide (e < 0) := by
  rw [BitVec.msb_eq_decide, BitVec.toNat_ofInt, overflows]
  by_cases outside : e < -32768 ∨ 32767 < e
  · simp [outside, ← decide_not]
    omega
  · simp [outside]
    omega

theorem ofInt_eq_zero_iff {e : Int} (low : -65536 < e) (high : e < 65536) : BitVec.ofInt 16 e = 0 ↔ e = 0 := by
  rw [← BitVec.toNat_inj, BitVec.toNat_ofInt]
  simp
  omega

section Subtract
variable {z : Dest} {x y : Word} {sign : Bool} {c d : Cpu}
  (done : AluDone z (BitVec.ofInt 16 (x.toInt - y.toInt)) (overflows (x.toInt - y.toInt))
    (aluCarry .sub (x.toNat - y.toNat)) sign c d)
include done

theorem AluDone.sub_az : d.flag bitAZ = decide (x = y) := by
  have hx := word_signed x
  have hy := word_signed y
  rw [done.az, decide_eq_decide, ofInt_eq_zero_iff (by omega) (by omega), sub_eq_zero, BitVec.toInt_inj]

theorem AluDone.sub_sign (notSticky : c.avLatch = false) :
    (d.flag bitAN ^^ d.flag bitAV) = decide (x.toInt < y.toInt) := by
  have hx := word_signed x
  have hy := word_signed y
  rw [done.an, done.av, notSticky, Bool.false_and, Bool.or_false, sign_xor_overflows (by omega) (by omega),
    decide_eq_decide, sub_neg]

theorem AluDone.sub_signOrZero (notSticky : c.avLatch = false) :
    (d.flag bitAN ^^ d.flag bitAV || d.flag bitAZ) = decide (x.toInt ≤ y.toInt) := by
  rw [done.sub_sign notSticky, done.sub_az, ← Bool.decide_or, decide_eq_decide, ← BitVec.toInt_inj]
  exact le_iff_lt_or_eq.symm

theorem AluDone.sub_ac : d.flag bitAC = decide (y.toNat ≤ x.toNat) := by
  rw [done.ac, aluCarry, decide_eq_decide]
  omega

end Subtract

/-- Settles O18: AZ, AN with AV, and AC each tell one comparison, and every condition is made of these. -/
theorem conditionsCompareAfterSubtract : Obligations.ConditionsCompareAfterSubtract := by
  unfold Obligations.ConditionsCompareAfterSubtract
  intro z yop xop s notSticky
  have done := aluDone_arithmetic z (fn := .sub) (yop := yop) (xop := xop) (c := s.cpu) rfl rfl
  have az := done.sub_az
  have less := done.sub_sign notSticky
  have ac := done.sub_ac
  have le := done.sub_signOrZero notSticky
  refine ⟨_, exec_condAlu_always z .sub yop xop s, az, ?ne, less, ?ge, le, ?gt, ac, ?notAc⟩
  case ne => exact (congrArg not az).trans decide_not.symm
  case ge => exact (congrArg not less).trans (by rw [← decide_not, decide_eq_decide, not_lt])
  case gt => exact (congrArg not le).trans (by rw [← decide_not, decide_eq_decide, not_le])
  case notAc => exact (congrArg not ac).trans (by rw [← decide_not, decide_eq_decide, not_le])

/-! ### Division (43_alu.md R190, R191) -/

/-- A word moved up by one bit, with a bit taken in below. -/
theorem shiftIn_ofInt (e : Int) (b : Bool) :
    (BitVec.ofInt 16 e) <<< 1 ||| (BitVec.ofBool b).setWidth 16 = BitVec.ofInt 16 (2 * e + b.toNat) := by
  have apart : (BitVec.ofInt 16 e) <<< 1 &&& (BitVec.ofBool b).setWidth 16 = 0 := by
    apply BitVec.eq_of_getLsbD_eq
    intro j hj
    cases j <;> simp
  rw [← BitVec.add_eq_or_of_and_eq_zero _ _ apart]
  apply BitVec.eq_of_toNat_eq
  cases b <;> simp [BitVec.toNat_ofInt, Nat.shiftLeft_eq] <;> omega

@[inherit_doc shiftIn_ofInt] theorem shiftIn_word (v : Word) (b : Bool) :
    v <<< 1 ||| (BitVec.ofBool b).setWidth 16 = BitVec.ofNat 16 (2 * v.toNat + b.toNat) :=
  calc
    _ = BitVec.ofInt 16 (2 * v.toNat + b.toNat) := by rw [← shiftIn_ofInt, ofInt_toNat, BitVec.setWidth_eq]
    _ = _ := BitVec.ofInt_natCast 16 _

theorem sign_xor (x y : Word) : (x ^^^ y).getLsbD 15 = (x.msb != y.msb) := by
  rw [BitVec.getLsbD_xor, ← BitVec.msb_eq_getLsbD_last, ← BitVec.msb_eq_getLsbD_last]

/-- What both divide primitives do: AQ takes `q`, AF:AY0 takes `r` over AY0 and moves up by one bit, with `low` taken in
below. -/
def Cpu.divideWrite (q low : Bool) (r : Word) (c : Cpu) : Cpu :=
  (c.setFlag bitAQ q).withLive fun b =>
    { b with af := r <<< 1 ||| (BitVec.ofBool (b.ay0.getLsbD 15)).setWidth 16,
             ay0 := b.ay0 <<< 1 ||| (BitVec.ofBool low).setWidth 16 }

section Divide
variable (q low : Bool) (r : Word) (c : Cpu)

theorem Cpu.divideWrite_flag (k : Nat) :
    (c.divideWrite q low r).flag k = if bitAQ = k ∧ k < 8 then q else c.flag k := by
  rw [Cpu.divideWrite, Cpu.withLive_flag, Cpu.flag_setFlag]

theorem Cpu.divideWrite_aq : (c.divideWrite q low r).flag bitAQ = q := by
  rw [Cpu.divideWrite_flag, if_pos (by decide)]

theorem Cpu.divideWrite_flagsKept : FlagsKept [bitAQ] c (c.divideWrite q low r) := fun k _ other => by
  rw [Cpu.divideWrite_flag, if_neg fun ⟨aq, _⟩ => other (List.mem_singleton.mpr aq.symm)]

theorem Cpu.divideWrite_live (e : Int) : (c.divideWrite q low (BitVec.ofInt 16 e)).live =
    { c.live with
      af := BitVec.ofInt 16 (2 * e + c.live.ay0.msb.toNat)
      ay0 := BitVec.ofNat 16 (2 * c.live.ay0.toNat + low.toNat) } := by
  rw [Cpu.divideWrite, Cpu.withLive_live, Cpu.setFlag_live, shiftIn_ofInt, shiftIn_word, ← BitVec.msb_eq_getLsbD_last]

end Divide

theorem divideSign_eq (yop : BitVec 2) (xop : BitVec 3) (c : Cpu) : divideSign yop xop c =
    c.divideWrite ((aluX xop c).msb != (aluY yop c).msb) ((aluX xop c).msb != (aluY yop c).msb)
      (BitVec.ofInt 16 (aluY yop c).toNat) := by
  rw [← sign_xor, ofInt_toNat, BitVec.setWidth_eq]
  rfl

/-- The new partial remainder of DIVQ: AQ tells whether the operand is added or subtracted (43_alu.md R191). -/
def Cpu.partialRemainder (xop : BitVec 3) (c : Cpu) : Int :=
  if c.flag bitAQ then c.live.af.toInt + (aluX xop c).toInt else c.live.af.toInt - (aluX xop c).toInt

theorem ofInt_partialRemainder (xop : BitVec 3) (c : Cpu) : BitVec.ofInt 16 (c.partialRemainder xop) =
    if c.flag bitAQ then c.live.af + aluX xop c else c.live.af - aluX xop c := by
  unfold Cpu.partialRemainder
  split <;> simp [sub_eq_add_neg, BitVec.ofInt_add, BitVec.ofInt_neg]

theorem divideStep_eq (xop : BitVec 3) (c : Cpu) : divideStep xop c =
    c.divideWrite ((BitVec.ofInt 16 (c.partialRemainder xop)).msb != (aluX xop c).msb)
      (!((BitVec.ofInt 16 (c.partialRemainder xop)).msb != (aluX xop c).msb))
      (BitVec.ofInt 16 (c.partialRemainder xop)) := by
  rw [← sign_xor, ofInt_partialRemainder]
  rfl

/-- Settles O19: both primitives are one operation on AQ, AF and AY0; DIVS starts it with its Y operand, DIVQ with the
new partial remainder. -/
theorem divideSteps : Obligations.DivideSteps := by
  unfold Obligations.DivideSteps
  refine ⟨fun yop xop s => ?sign, fun xop s => ?step⟩
  case sign =>
    refine ⟨_, rfl, onlyCpu_onCpu _ s, onlyCompute_divideSign s.cpu yop xop, ?_⟩
    show FlagsKept _ _ (divideSign yop xop s.cpu) ∧ (divideSign yop xop s.cpu).flag _ = _ ∧
      (divideSign yop xop s.cpu).live = _
    rw [divideSign_eq]
    exact ⟨s.cpu.divideWrite_flagsKept _ _ _, s.cpu.divideWrite_aq _ _ _, s.cpu.divideWrite_live _ _ _⟩
  case step =>
    refine ⟨_, rfl, onlyCpu_onCpu _ s, onlyCompute_divideStep s.cpu xop, ?_⟩
    show FlagsKept _ _ (divideStep xop s.cpu) ∧ (divideStep xop s.cpu).flag _ = _ ∧ (divideStep xop s.cpu).live = _
    rw [divideStep_eq]
    exact ⟨s.cpu.divideWrite_flagsKept _ _ _, s.cpu.divideWrite_aq _ _ _, s.cpu.divideWrite_live _ _ _⟩

end Sys2Proof.Machine
end

/-! # The MAC

Two things carry this part. A MAC function that has a plan answers with the pattern of its exact value, so the routing of
a pattern, with MV, is proved once for all fifteen. And the 40-bit pattern is followed as one number: its upper words are
its quotient by 2^16, its sign is that of MR2, and MV tells whether it fits in 32 bits.
-/
section
namespace Sys2Proof.Machine

/-! ### A 40-bit pattern as a number (44_mac.md R201 to R203) -/

/-- The top nine bits are all alike just when the number fits in 32 bits (44_mac.md R203). -/
theorem macOverflow_eq (q : BitVec 40) :
    macOverflow q = decide (q.toInt < -2147483648 ∨ 2147483647 < q.toInt) := by
  have range := q.isLt
  have top : (q.extractLsb' 31 9).toNat = q.toNat / 2147483648 := by
    rw [BitVec.extractLsb'_toNat, Nat.shiftRight_eq_div_pow]
    omega
  have clear : (q.extractLsb' 31 9 == 0) = decide (q.toNat / 2147483648 = 0) := by
    rw [beq_eq_decide, decide_eq_decide, ← BitVec.toNat_inj, top]
    rfl
  have ones : (q.extractLsb' 31 9 == BitVec.allOnes 9) = decide (q.toNat / 2147483648 = 511) := by
    rw [beq_eq_decide, decide_eq_decide, ← BitVec.toNat_inj, top]
    rfl
  rw [macOverflow, clear, ones, ← Bool.decide_or, ← decide_not, decide_eq_decide, BitVec.toInt_eq_toNat_cond]
  omega

/-- The two upper words together are the quotient by 2^16, rounded down. -/
theorem upperWords_toInt (q : BitVec 40) : (q.extractLsb' 32 8 ++ q.extractLsb' 16 16).toInt = q.toInt / 65536 := by
  have joined : q.extractLsb' 32 8 ++ q.extractLsb' 16 16 = q.extractLsb' 16 24 :=
    BitVec.extractLsb'_append_extractLsb'_eq_extractLsb' (by decide)
  have upper : (q.extractLsb' 16 24).toNat = q.toNat / 65536 := by
    rw [BitVec.extractLsb'_toNat, Nat.shiftRight_eq_div_pow]
    omega
  rw [joined, BitVec.toInt_eq_toNat_cond, BitVec.toInt_eq_toNat_cond, upper]
  omega

/-- MR1 and MR0 under MR2 give back the pattern they were cut from (10_state.md R21). -/
theorem words_append (q : BitVec 40) : q.extractLsb' 32 8 ++ q.extractLsb' 16 16 ++ q.extractLsb' 0 16 = q := by
  have upper : q.extractLsb' 32 8 ++ q.extractLsb' 16 16 = q.extractLsb' 16 24 :=
    BitVec.extractLsb'_append_extractLsb'_eq_extractLsb' (by decide)
  have all : q.extractLsb' 16 24 ++ q.extractLsb' 0 16 = q.extractLsb' 0 40 :=
    BitVec.extractLsb'_append_extractLsb'_eq_extractLsb' (by decide)
  rw [upper, all, BitVec.extractLsb'_eq_self]

/-- Bit 7 of MR2 is the sign of MR (10_state.md R21). -/
theorem Bank.mr_sign (b : Bank) : b.mr2.getLsbD 7 = decide (b.mr.toInt < 0) := by
  rw [← BitVec.msb_eq_toInt, Bank.mr, BitVec.msb_append, BitVec.msb_append, ← BitVec.msb_eq_getLsbD_last b.mr2]
  rfl

/-! ### What the functions answer (44_mac.md R201 to R219) -/

/-- PS is the same exact product, whichever factor the doubling is put to (44_mac.md R201). -/
theorem macProduct_eq {fn : MacFn} {p : MacPlan} (plan : macPlan fn = some p) (x y : Word) (mMode : Bool) :
    macProduct p x y mMode = macPs fn x y mMode := by
  have product : macOperand p.xSigned x * macOperand p.ySigned y = (macFactors fn x y).1 * (macFactors fn x y).2 := by
    cases fn with
    | noOp => cases plan
    | mulRnd | addRnd | subRnd | mulSS | mulSU | mulUS | mulUU | addSS | addSU | addUS | addUU | subSS | subSU | subUS
    | subUU => cases plan; rfl
  cases mMode <;> simp [macProduct, macPs, product]

/-- Bit 16 is cleared in a tie, whether the tie is told by the low word of PS or by its remainder (44_mac.md R202). -/
theorem macRound_eq (r ps : Int) : macRound r ps =
    if ps % 65536 = 32768 then BitVec.ofInt 40 (r + 32768) &&& ~~~(0x10000 : BitVec 40)
    else BitVec.ofInt 40 (r + 32768) := by
  have tie : (BitVec.ofInt 16 ps == 0x8000) = decide (ps % 65536 = 32768) := by
    rw [beq_eq_decide, decide_eq_decide, ← BitVec.toNat_inj, BitVec.toNat_ofInt]
    simp
    omega
  simp only [macRound, tie, decide_eq_true_eq]
  rfl

/-- A function with a plan answers with the pattern of its exact value. -/
theorem macResult_eq {fn : MacFn} {p : MacPlan} (plan : macPlan fn = some p) (x y : Word) (mMode : Bool)
    (mr : BitVec 40) : macResult p x y mMode mr = macPattern fn x y mMode mr.toInt := by
  rw [macResult, macPattern, macProduct_eq plan]
  cases fn with
  | noOp => cases plan
  | mulRnd | addRnd | subRnd => cases plan; exact macRound_eq _ _
  | mulSS | mulSU | mulUS | mulUU | addSS | addSU | addUS | addUU | subSS | subSU | subUS | subUU => cases plan; rfl

/-! ### A MAC operation (44_mac.md R200 to R219) -/

theorem Cpu.macWrite_flag (z : Dest) (q : BitVec 40) (c : Cpu) (k : Nat) :
    (c.macWrite z q).flag k = if bitMV = k ∧ k < 8 then macOverflow q else c.flag k := by
  cases z <;> simp [Cpu.macWrite]

theorem Cpu.macWrite_live (z : Dest) (q : BitVec 40) (c : Cpu) : (c.macWrite z q).live =
    if z = .primary then
      { c.live with mr2 := q.extractLsb' 32 8, mr1 := q.extractLsb' 16 16, mr0 := q.extractLsb' 0 16 }
    else { c.live with mf := q.extractLsb' 16 16 } := by
  cases z <;> simp [Cpu.macWrite]

/-- Function 0 does nothing (44_mac.md R204). -/
theorem macPart_noOp (z : Dest) (yop : BitVec 2) (xop : BitVec 3) (c : Cpu) : macPart z .noOp yop xop c = c := rfl

theorem macPlan_of_ne_noOp {fn : MacFn} (computes : fn ≠ .noOp) : ∃ p, macPlan fn = some p := by
  cases fn with
  | noOp => exact absurd rfl computes
  | mulRnd | addRnd | subRnd | mulSS | mulSU | mulUS | mulUU | addSS | addSU | addUS | addUU | subSS | subSU | subUS
  | subUU => exact ⟨_, rfl⟩

/-- Every other function writes its pattern (44_mac.md R203). -/
theorem macPart_eq_macWrite {fn : MacFn} (computes : fn ≠ .noOp) (z : Dest) (yop : BitVec 2) (xop : BitVec 3)
    (c : Cpu) : macPart z fn yop xop c =
      c.macWrite z (macPattern fn (macX xop c) (macY yop c) c.mMode c.live.mr.toInt) := by
  obtain ⟨p, plan⟩ := macPlan_of_ne_noOp computes
  rw [← macResult_eq plan]
  simp only [macPart, plan]

/-- What a MAC operation leaves, whichever function gave the pattern. -/
theorem macDone_macPart {fn : MacFn} (computes : fn ≠ .noOp) (z : Dest) (yop : BitVec 2) (xop : BitVec 3) (c : Cpu) :
    MacDone z (macPattern fn (macX xop c) (macY yop c) c.mMode c.live.mr.toInt) c (macPart z fn yop xop c) := by
  refine ⟨onlyCompute_macPart c z fn yop xop, fun k _ other => ?flags, ?mv, ?live⟩
  all_goals rw [macPart_eq_macWrite computes]
  case flags => rw [Cpu.macWrite_flag, if_neg fun ⟨mv, _⟩ => other (List.mem_singleton.mpr mv.symm)]
  case mv => rw [Cpu.macWrite_flag, if_pos (by decide), macOverflow_eq]
  case live => exact c.macWrite_live z _

/-! ### The conditional form (44_mac.md R220) -/

theorem exec_condMac (z : Dest) (fn : MacFn) (yop : BitVec 2) (xop : BitVec 3) (cond : Cond) (s : State) :
    exec (condMac z fn yop xop cond) s = .next (whenCond cond (onCpu (macPart z fn yop xop)) s) := by
  cases z <;> cases fn <;> rfl

theorem exec_condMac_always (z : Dest) (fn : MacFn) (yop : BitVec 2) (xop : BitVec 3) (s : State) :
    exec (condMac z fn yop xop .always) s = .next (onCpu (macPart z fn yop xop) s) :=
  exec_condMac z fn yop xop .always s

/-- Settles O20: function 0 has no plan, and every other function writes the pattern of its exact value. -/
theorem macFunctions : Obligations.MacFunctions := by
  unfold Obligations.MacFunctions
  intro z fn yop xop cond s
  refine completesIf_compute (exec_condMac z fn yop xop cond s) fun c => ⟨?nothing, fun computes => ?computes⟩
  case nothing =>
    rintro rfl
    exact macPart_noOp z yop xop c
  case computes => exact macDone_macPart computes z yop xop c

/-! ### Rounding (44_mac.md R202) -/

/-- A mask and its complement share a pattern out. -/
theorem toNat_and_not_add_and {w : Nat} (q m : BitVec w) : (q &&& ~~~m).toNat + (q &&& m).toNat = q.toNat := by
  have apart : (q &&& ~~~m) &&& (q &&& m) = 0 := by
    rw [BitVec.and_comm q m, ← BitVec.and_assoc, BitVec.and_assoc q, BitVec.not_and_self]
    simp
  have whole : (q &&& ~~~m) ||| (q &&& m) = q := by
    rw [← BitVec.and_or_distrib_left, BitVec.not_or_self, BitVec.and_allOnes]
  rw [← BitVec.toNat_add_of_and_eq_zero apart, BitVec.add_eq_or_of_and_eq_zero _ _ apart, whole]

/-- Clearing bit 16 takes 2^16 away where the bit was set. -/
theorem clearBit16_toNat (q : BitVec 40) :
    (q &&& ~~~(0x10000 : BitVec 40)).toNat = q.toNat - 65536 * (q.toNat / 65536 % 2) := by
  have bit : (q &&& 0x10000).toNat = 65536 * (q.toNat / 65536 % 2) :=
    calc
      _ = (q.toNat.testBit 16).toNat * 65536 := Nat.and_two_pow q.toNat 16
      _ = _ := by rw [Nat.toNat_testBit, Nat.mul_comm]
  have parts := toNat_and_not_add_and q 0x10000
  omega

/-- The upper words of a rounded result that fits are the integer nearest to it in units of 2^16, the even one in a
tie. -/
theorem macRound_nearest {ps : Int} (low : -2147483648 ≤ ps) (high : ps ≤ 2147483648) :
    let h := (macRound ps ps).toInt / 65536
    ps - 65536 * h ≤ 32768 ∧ 65536 * h - ps ≤ 32768 ∧ (ps % 65536 = 32768 → h % 2 = 0) := by
  rw [macRound_eq]
  split
  next tie =>
    rw [BitVec.toInt_eq_toNat_cond, clearBit16_toNat, BitVec.toNat_ofInt]
    dsimp only
    split <;> omega
  next notTie =>
    have value : (BitVec.ofInt 40 (ps + 32768)).toInt = ps + 32768 :=
      BitVec.toInt_ofInt_eq_self (by decide) (by omega) (by omega)
    rw [value]
    omega

/-- The pattern of the rounded product is the rounding of PS, which is that of two signed operands (44_mac.md R205). -/
theorem macPattern_mulRnd (x y : Word) (mMode : Bool) (mr : Int) :
    macPattern .mulRnd x y mMode mr = macRound (macPs .mulSS x y mMode) (macPs .mulSS x y mMode) := by
  rw [macRound_eq]
  rfl

/-! ### The product of two signed operands (44_mac.md R201, R208) -/

theorem signedProduct_range (x y : Word) : -1073741824 ≤ x.toInt * y.toInt ∧ x.toInt * y.toInt ≤ 1073741824 :=
  ⟨BitVec.le_toInt_mul_toInt, BitVec.toInt_mul_toInt_le⟩

/-- A product as large as that of the two least words has the least word for its first factor: any other factor is at
most 32767 off zero, and the second at most 32768. -/
theorem factor_of_signedProduct_top {x y : Word} (top : 1073741824 ≤ x.toInt * y.toInt) : x = 0x8000 := by
  have xLow : -32768 ≤ x.toInt := x.le_toInt
  have xHigh : x.toInt < 32768 := x.toInt_lt
  have yLow : -32768 ≤ y.toInt := y.le_toInt
  have yHigh : y.toInt < 32768 := y.toInt_lt
  have least : x.toInt = -32768 := by
    by_contra other
    have below : 0 ≤ (32767 - x.toInt) * (y.toInt + 32768) := mul_nonneg (by omega) (by omega)
    have above : 0 ≤ (32767 + x.toInt) * (32768 - y.toInt) := mul_nonneg (by omega) (by omega)
    linarith
  exact BitVec.toInt_inj.mp least

theorem signedProduct_top_iff (x y : Word) : 1073741824 ≤ x.toInt * y.toInt ↔ x = 0x8000 ∧ y = 0x8000 := by
  constructor
  · intro top
    exact ⟨factor_of_signedProduct_top top, factor_of_signedProduct_top (mul_comm x.toInt y.toInt ▸ top)⟩
  · rintro ⟨rfl, rfl⟩
    decide

/-- PS of two signed operands; the rounded product has the same (44_mac.md R201, R205, R208). -/
theorem macPs_mulSS (x y : Word) (mMode : Bool) :
    macPs .mulSS x y mMode = if mMode then x.toInt * y.toInt else 2 * (x.toInt * y.toInt) := by
  cases mMode <;> simp [macPs, macFactors]

theorem macPs_mulSS_range (x y : Word) (mMode : Bool) :
    -2147483648 ≤ macPs .mulSS x y mMode ∧ macPs .mulSS x y mMode ≤ 2147483648 := by
  have range := signedProduct_range x y
  rw [macPs_mulSS]
  split <;> omega

/-- The pattern of a signed product is the product, which 40 bits hold (44_mac.md R203, R208). -/
theorem macPattern_mulSS_toInt (x y : Word) (mMode : Bool) (mr : Int) :
    (macPattern .mulSS x y mMode mr).toInt = macPs .mulSS x y mMode := by
  obtain ⟨low, high⟩ := macPs_mulSS_range x y mMode
  have pattern : macPattern .mulSS x y mMode mr = BitVec.ofInt 40 (macPs .mulSS x y mMode) := rfl
  rw [pattern, BitVec.toInt_ofInt_eq_self (by decide) (by omega) (by omega)]

/-- The one product that does not fit in 32 bits is the largest one, doubled (44_mac.md R208). -/
theorem macPs_mulSS_outside_iff (x y : Word) (mMode : Bool) :
    (macPs .mulSS x y mMode < -2147483648 ∨ 2147483647 < macPs .mulSS x y mMode) ↔
      x = 0x8000 ∧ y = 0x8000 ∧ mMode = false := by
  have range := signedProduct_range x y
  rw [← and_assoc, ← signedProduct_top_iff, macPs_mulSS]
  cases mMode with
  | true =>
    simp
    omega
  | false =>
    simp
    omega

/-! ### The two products -/

/-- Settles O21: MR2 and MR1 hold the upper words of the rounded product, which fits. -/
theorem roundedProductIsNearestEven : Obligations.RoundedProductIsNearestEven := by
  unfold Obligations.RoundedProductIsNearestEven
  intro yop xop s
  refine ⟨_, exec_condMac_always .primary .mulRnd yop xop s, ?_⟩
  have live := (macDone_macPart (fn := .mulRnd) nofun .primary yop xop s.cpu).live
  obtain ⟨low, high⟩ := macPs_mulSS_range (macX xop s.cpu) (macY yop s.cpu) s.cpu.mMode
  simp only [State.onCpu_cpu, live, if_true, upperWords_toInt]
  rw [macPattern_mulRnd]
  exact macRound_nearest low high

/-- Settles O22: the pattern of a signed product is exact, and only one product lies outside 32 bits. -/
theorem onlySignedProductThatSetsMv : Obligations.OnlySignedProductThatSetsMv := by
  unfold Obligations.OnlySignedProductThatSetsMv
  intro z yop xop s
  refine ⟨_, exec_condMac_always z .mulSS yop xop s, ?_⟩
  rw [State.onCpu_cpu, (macDone_macPart (fn := .mulSS) nofun z yop xop s.cpu).mv, macPattern_mulSS_toInt,
    decide_eq_decide]
  exact macPs_mulSS_outside_iff _ _ _

/-! ### Saturation (44_mac.md R221) -/

theorem saturateMr_of_clear {c : Cpu} (clear : c.flag bitMV = false) : saturateMr c = c := by
  simp [saturateMr, clear]

theorem saturateMr_live {c : Cpu} (set : c.flag bitMV = true) : (saturateMr c).live =
    if c.live.mr.toInt < 0 then { c.live with mr2 := 0xFF, mr1 := 0x8000, mr0 := 0x0000 }
    else { c.live with mr2 := 0x00, mr1 := 0x7FFF, mr0 := 0xFFFF } := by
  simp only [saturateMr, if_pos set, Cpu.withLive_live, Bank.mr_sign, decide_eq_true_eq]

/-- With MV set MR becomes the 32-bit limit of its sign (44_mac.md R221). -/
theorem saturateMr_mr {c : Cpu} (set : c.flag bitMV = true) :
    (saturateMr c).live.mr.toInt = if c.live.mr.toInt < 0 then -2147483648 else 2147483647 := by
  have least : (0xFF#8 ++ 0x8000#16 ++ 0x0000#16).toInt = -2147483648 := by decide
  have greatest : (0x00#8 ++ 0x7FFF#16 ++ 0xFFFF#16).toInt = 2147483647 := by decide
  rw [saturateMr_live set]
  split
  · exact least
  · exact greatest

/-- While MV tells whether MR lies outside 32 bits, saturation is the clamp to the range (44_mac.md R203, R221). -/
theorem saturateMr_clamps {c : Cpu}
    (mv : c.flag bitMV = decide (c.live.mr.toInt < -2147483648 ∨ 2147483647 < c.live.mr.toInt)) :
    (saturateMr c).live.mr.toInt = max (-2147483648) (min 2147483647 c.live.mr.toInt) := by
  by_cases outside : c.live.mr.toInt < -2147483648 ∨ 2147483647 < c.live.mr.toInt
  · rw [saturateMr_mr (mv.trans (decide_eq_true outside))]
    omega
  · rw [saturateMr_of_clear (mv.trans (decide_eq_false outside))]
    omega

/-- The pattern of a MAC function stands in MR (44_mac.md R203). -/
theorem MacDone.mr {q : BitVec 40} {c d : Cpu} (done : MacDone .primary q c d) : d.live.mr = q := by
  rw [done.live]
  exact words_append q

/-- Settles O23: saturation replaces the words of MR alone, and after a MAC function MV is set just when MR lies outside
the range. (The name `saturateMr` is the model's own operation.) -/
theorem saturateMr_spec : Obligations.SaturateMr := by
  unfold Obligations.SaturateMr
  refine ⟨fun s => ?alone, fun fn yop xop s computes => ?after⟩
  case alone =>
    refine ⟨_, rfl, onlyCpu_onCpu _ s, saturateMr_of_clear, fun set => ?_⟩
    refine ⟨onlyCompute_saturateMr s.cpu, Cpu.saturateMr_astat s.cpu, ?words, saturateMr_mr set⟩
    case words =>
      rw [State.onCpu_cpu, saturateMr_live set]
      split <;> rfl
  case after =>
    have done := macDone_macPart computes .primary yop xop s.cpu
    refine ⟨_, _, exec_condMac_always .primary fn yop xop s, rfl, ?_⟩
    rw [State.onCpu_cpu, State.onCpu_cpu, saturateMr_clamps (done.mr ▸ done.mv), done.mr]

end Sys2Proof.Machine
end

/-! # The shifter

A shift is followed on an endless field: a 32-bit pattern with zeros below it and a fill above it. Both primitives of
R231 are moves along that field, and the operand's place in it is the `fieldBit` of the statements, so the result of
each function is read off bit by bit. Every function that writes SR is one `srWrite` of its result, and what that write
leaves is proved once. The exponent functions rest on one fact about `countEqual`: it counts a leading run.
-/
section
namespace Sys2Proof.Machine

/-! ### Shifts along an endless field (45_shifter.md R231) -/

/-- Bit `k` of the endless field that holds the pattern `v` at its bits 0 to 31: zeros below it, `above` over it. -/
def patternBit (v : BitVec 32) (above : Bool) (k : Int) : Bool :=
  if k < 0 then false else if k < 32 then v.getLsbD k.toNat else above

/-- The operand as a high word lies in the field from bit 16 on. -/
theorem patternBit_hiField (x : Word) (above : Bool) (k : Int) :
    patternBit (hiField x) above k = fieldBit x 16 above k := by
  unfold patternBit fieldBit hiField
  rw [BitVec.getLsbD_append]
  rcases lt_or_ge k 16 with low | high
  · simp [low, show k.toNat < 16 by omega, show k < 32 by omega]
  · simp [show ¬k < 0 by omega, show ¬k < 16 by omega, show ¬k.toNat < 16 by omega,
      show k.toNat - 16 = (k - 16).toNat by omega]

/-- The operand as a low word, zero-extended, lies in the field from bit 0 on, with zeros over it. -/
theorem patternBit_setWidth (x : Word) (k : Int) : patternBit (x.setWidth 32) false k = fieldBit x 0 false k := by
  unfold patternBit fieldBit
  rcases lt_or_ge k 16 with low | high
  · simp [low, show k < 32 by omega, show k.toNat < 32 by omega]
  · simp [show ¬k < 0 by omega, show ¬k < 16 by omega, show 16 ≤ k.toNat by omega]

/-- The operand as a low word, sign-extended, lies in the field from bit 0 on, with its sign over it. -/
theorem patternBit_signExtend (x : Word) (k : Int) :
    patternBit (x.signExtend 32) x.msb k = fieldBit x 0 x.msb k := by
  unfold patternBit fieldBit
  rw [BitVec.getLsbD_signExtend]
  rcases lt_or_ge k 16 with low | high
  · simp [low, show k < 32 by omega, show k.toNat < 32 by omega, show k.toNat < 16 by omega]
  · simp [show ¬k < 0 by omega, show ¬k < 16 by omega, show ¬k.toNat < 16 by omega]
    exact fun within _ => within

/-- A left shift moves the pattern up the field. -/
theorem getLsbD_shiftLeft_eq_patternBit (v : BitVec 32) (above : Bool) (n : Nat) {j : Nat} (hj : j < 32) :
    (v <<< n).getLsbD j = patternBit v above (j - n) := by
  rw [BitVec.getLsbD_shiftLeft, patternBit]
  rcases lt_or_ge j n with below | within
  · simp [below, show (j : Int) - n < 0 by omega]
  · simp [hj, show ¬j < n by omega, show ¬(j : Int) - n < 0 by omega, show (j : Int) - n < 32 by omega,
      show ((j : Int) - n).toNat = j - n by omega]

/-- An arithmetic right shift moves the pattern down the field, the sign over it. -/
theorem getLsbD_sshiftRight_eq_patternBit (v : BitVec 32) (n : Nat) {j : Nat} (hj : j < 32) :
    (v.sshiftRight n).getLsbD j = patternBit v v.msb (j + n) := by
  rw [BitVec.getLsbD_sshiftRight, patternBit]
  simp [show ¬32 ≤ j by omega, show ¬(j : Int) + n < 0 by omega, show ((j : Int) + n).toNat = n + j by omega,
    show (j : Int) + n < 32 ↔ n + j < 32 by omega]

/-- A logical right shift moves the pattern down the field, zeros over it. -/
theorem getLsbD_ushiftRight_eq_patternBit (v : BitVec 32) (n j : Nat) :
    (v >>> n).getLsbD j = patternBit v false (j + n) := by
  rw [BitVec.getLsbD_ushiftRight, patternBit]
  rcases lt_or_ge (n + j) 32 with within | above
  · simp [show ¬(j : Int) + n < 0 by omega, show (j : Int) + n < 32 by omega,
      show ((j : Int) + n).toNat = n + j by omega]
  · simp [show ¬(j : Int) + n < 0 by omega, show ¬(j : Int) + n < 32 by omega, above]

/-- Shifting by 32 or more leaves nothing, so the bounds of `Lsh` only spell out what the shifts do anyway
(45_shifter.md R231). -/
theorem lsh_eq (v : BitVec 32) (sc : Int) : lsh v sc = if 0 < sc then v <<< sc.toNat else v >>> (-sc).toNat := by
  unfold lsh
  split
  · split
    · rfl
    · exact (BitVec.shiftLeft_eq_zero (by omega)).symm
  · split
    · rfl
    · exact (BitVec.ushiftRight_eq_zero (by omega)).symm

theorem ofInt_mul_two_pow (v : BitVec 32) (n : Nat) : BitVec.ofInt 32 (v.toInt * 2 ^ n) = v <<< n := by
  have power : BitVec.ofInt 32 (2 ^ n) = BitVec.twoPow 32 n := by
    rw [show (2 : Int) ^ n = (2 ^ n : Nat) by norm_cast, BitVec.ofInt_natCast]
    exact BitVec.eq_of_toNat_eq (by rw [BitVec.toNat_ofNat, BitVec.toNat_twoPow])
  rw [BitVec.ofInt_mul, BitVec.ofInt_toInt, power, BitVec.shiftLeft_eq_mul_twoPow]

theorem ofInt_ediv_two_pow (v : BitVec 32) (n : Nat) : BitVec.ofInt 32 (v.toInt / 2 ^ n) = v.sshiftRight n := by
  rw [← BitVec.ofInt_toInt (x := v.sshiftRight n), BitVec.toInt_sshiftRight, Int.shiftRight_eq_div_pow]
  norm_cast

/-- `Ash` on the number of a pattern shifts the pattern: products by 2^n are left shifts, quotients rounded down are
arithmetic right shifts (45_shifter.md R231). -/
theorem ash_toInt (v : BitVec 32) (sc : Int) :
    ash v.toInt sc = if 0 < sc then v <<< sc.toNat else v.sshiftRight (-sc).toNat := by
  unfold ash
  split
  · split
    · exact ofInt_mul_two_pow v _
    · exact (BitVec.shiftLeft_eq_zero (by omega)).symm
  · exact ofInt_ediv_two_pow v _

/-- `Lsh` moves the pattern along the field, zeros over it. -/
theorem lsh_getLsbD (v : BitVec 32) (sc : Int) {j : Nat} (hj : j < 32) :
    (lsh v sc).getLsbD j = patternBit v false (j - sc) := by
  rw [lsh_eq]
  split
  next left => rw [getLsbD_shiftLeft_eq_patternBit v false _ hj, Int.toNat_of_nonneg (by omega)]
  next right => rw [getLsbD_ushiftRight_eq_patternBit, Int.toNat_of_nonneg (by omega), sub_eq_add_neg]

/-- `Ash` moves the pattern along the field, its sign over it. -/
theorem ash_getLsbD (v : BitVec 32) (sc : Int) {j : Nat} (hj : j < 32) :
    (ash v.toInt sc).getLsbD j = patternBit v v.msb (j - sc) := by
  rw [ash_toInt]
  split
  next left => rw [getLsbD_shiftLeft_eq_patternBit v v.msb _ hj, Int.toNat_of_nonneg (by omega)]
  next right => rw [getLsbD_sshiftRight_eq_patternBit v _ hj, Int.toNat_of_nonneg (by omega), sub_eq_add_neg]

/-! ### The results of the functions (45_shifter.md R232 to R243) -/

theorem hiField_toInt (x : Word) : (hiField x).toInt = x.toInt * 65536 := by
  rw [mul_comm]
  exact BitVec.toInt_append_zero

theorem hiField_msb (x : Word) : (hiField x).msb = x.msb := by
  rw [hiField, BitVec.msb_append]
  rfl

theorem signExtend_msb (x : Word) : (x.signExtend 32).msb = x.msb := BitVec.msb_signExtend

/-- The first place of a right shift by NORM (HI): AC becomes the sign (45_shifter.md R240). -/
def normFirstPlace (x : Word) (ac : Bool) : BitVec 32 := (BitVec.ofBool ac).setWidth 32 <<< 31 ||| hiField x >>> 1

theorem normHiResult_eq (x : Word) (ac : Bool) (sc : Int) : normHiResult x ac sc =
    if 0 < sc then (normFirstPlace x ac).sshiftRight (sc - 1).toNat else lsh (hiField x) (-sc) := rfl

theorem normFirstPlace_getLsbD (x : Word) (ac : Bool) {j : Nat} (hj : j < 32) :
    (normFirstPlace x ac).getLsbD j = patternBit (hiField x) ac (j + 1) := by
  rw [normFirstPlace, BitVec.getLsbD_or, BitVec.getLsbD_shiftLeft, getLsbD_ushiftRight_eq_patternBit]
  rcases Nat.lt_or_eq_of_le (Nat.le_of_lt_succ hj) with lower | rfl
  · simp [patternBit, lower, show (j : Int) + 1 < 32 by omega]
  · simp [patternBit]

theorem normFirstPlace_msb (x : Word) (ac : Bool) : (normFirstPlace x ac).msb = ac := by
  rw [BitVec.msb_eq_getLsbD_last, normFirstPlace_getLsbD x ac (by decide)]
  rfl

/-- The first place moves the high word one bit down the field, with AC over it. -/
theorem patternBit_normFirstPlace (x : Word) (ac : Bool) {k : Int} (hk : 0 ≤ k) :
    patternBit (normFirstPlace x ac) ac k = patternBit (hiField x) ac (k + 1) := by
  obtain ⟨j, rfl⟩ := Int.eq_ofNat_of_zero_le hk
  rcases lt_or_ge j 32 with within | above
  · rw [← normFirstPlace_getLsbD x ac within]
    simp [patternBit, within]
  · simp [patternBit, show ¬(j : Int) < 0 by omega, show ¬(j : Int) + 1 < 0 by omega, show ¬j < 32 by omega,
      show ¬(j : Int) + 1 < 32 by omega]

/-- NORM (HI) moves the high word down the field by `sc`, with AC over it: the first place brings AC in as the sign, and
the further places copy it (45_shifter.md R240). -/
theorem normHiResult_getLsbD (x : Word) (ac : Bool) (sc : Int) {j : Nat} (hj : j < 32) :
    (normHiResult x ac sc).getLsbD j = patternBit (hiField x) ac (j + sc) := by
  rw [normHiResult_eq]
  split
  next down =>
    rw [getLsbD_sshiftRight_eq_patternBit _ _ hj, normFirstPlace_msb, Int.toNat_of_nonneg (by omega),
      patternBit_normFirstPlace x ac (by omega)]
    congr 1
    omega
  next up =>
    have within : (j : Int) + sc < 32 := by omega
    rw [lsh_getLsbD _ _ hj, sub_neg_eq_add]
    simp [patternBit, within]

/-- The 32-bit result of a shifter function before it is joined with SR; EXP and EXPADJ have none. -/
def shiftResult (sf : ShFn) (x : Word) (ac : Bool) (sc : Int) : BitVec 32 :=
  match sf with
  | .lshiftHi | .orLshiftHi => lsh (hiField x) sc
  | .lshiftLo | .orLshiftLo => lsh (x.setWidth 32) sc
  | .ashiftHi | .orAshiftHi => ash (x.toInt * 65536) sc
  | .ashiftLo | .orAshiftLo => ash x.toInt sc
  | .normHi | .orNormHi => normHiResult x ac sc
  | .normLo | .orNormLo => normLoResult x sc
  | .expHi | .expHix | .expLo | .expAdj => 0

/-- A function that writes SR writes its result there (45_shifter.md R231). -/
theorem shiftPart_eq_srWrite {sf : ShFn} (writes : shiftWritesSr sf = true) (xop : BitVec 3) (sc : Int) (c : Cpu) :
    shiftPart sf xop sc c = c.srWrite (shiftMerges sf) (shiftResult sf (shX xop c) (c.flag bitAC) sc) := by
  cases sf with
  | lshiftHi | orLshiftHi | lshiftLo | orLshiftLo | ashiftHi | orAshiftHi | ashiftLo | orAshiftLo | normHi | orNormHi
  | normLo | orNormLo => rfl
  | expHi | expHix | expLo | expAdj => cases writes

/-- Each result has the bits of its rule. -/
theorem shiftResult_getLsbD (sf : ShFn) (x : Word) (ac : Bool) (sc : Int) {j : Nat} (hj : j < 32) :
    (shiftResult sf x ac sc).getLsbD j = shiftedBit sf x ac sc j := by
  cases sf with
  | lshiftHi | orLshiftHi => exact (lsh_getLsbD _ sc hj).trans (patternBit_hiField x false _)
  | lshiftLo | orLshiftLo => exact (lsh_getLsbD _ sc hj).trans (patternBit_setWidth x _)
  | ashiftHi | orAshiftHi =>
    rw [shiftResult, ← hiField_toInt, ash_getLsbD _ sc hj, hiField_msb, patternBit_hiField]
    rfl
  | ashiftLo | orAshiftLo =>
    rw [shiftResult, ← BitVec.toInt_signExtend_of_le (x := x) (v := 32) (by decide), ash_getLsbD _ sc hj,
      signExtend_msb, patternBit_signExtend]
    rfl
  | normHi | orNormHi => exact (normHiResult_getLsbD x ac sc hj).trans (patternBit_hiField x ac _)
  | normLo | orNormLo =>
    rw [shiftResult, normLoResult, lsh_getLsbD _ _ hj, patternBit_setWidth, sub_neg_eq_add]
    rfl
  | expHi | expHix | expLo | expAdj => exact BitVec.getLsbD_zero

/-! ### The write of SR (45_shifter.md R231) -/

/-- SR1 over SR0 gives back the pattern they were cut from (10_state.md R21). -/
theorem srWords_append (v : BitVec 32) : v.extractLsb' 16 16 ++ v.extractLsb' 0 16 = v := by
  have joined : v.extractLsb' 16 16 ++ v.extractLsb' 0 16 = v.extractLsb' 0 32 :=
    BitVec.extractLsb'_append_extractLsb'_eq_extractLsb' (by decide)
  rw [joined, BitVec.extractLsb'_eq_self]

theorem Cpu.srWrite_sr (merge : Bool) (res : BitVec 32) (c : Cpu) :
    (c.srWrite merge res).live.sr = if merge then res ||| c.live.sr else res := by
  rw [Cpu.srWrite, Cpu.withLive_live, Bank.sr]
  exact srWords_append _

/-- Of the live bank `SrWrite` writes SR1 and SR0 alone. -/
theorem Cpu.srWrite_live (merge : Bool) (res : BitVec 32) (c : Cpu) : (c.srWrite merge res).live =
    { c.live with sr1 := (c.srWrite merge res).live.sr1, sr0 := (c.srWrite merge res).live.sr0 } := by
  simp only [Cpu.srWrite, Cpu.withLive_live]

/-- What a shift leaves, whichever function gave the result. -/
theorem shiftDone_shiftPart {sf : ShFn} (writes : shiftWritesSr sf = true) (xop : BitVec 3) (sc : Int) (c : Cpu) :
    ShiftDone sf (shX xop c) sc c (shiftPart sf xop sc c) := by
  refine ⟨onlyCompute_shiftPart c sf xop sc, ?astat, ?live, fun j hj => ?bits⟩
  all_goals rw [shiftPart_eq_srWrite writes]
  case astat => exact c.srWrite_astat _ _
  case live => exact c.srWrite_live _ _
  case bits =>
    rw [Cpu.srWrite_sr, ← shiftResult_getLsbD sf _ _ sc hj]
    cases shiftMerges sf <;> simp

/-! ### The two forms (45_shifter.md R248, R249) -/

theorem exec_condShift (sf : ShFn) (xop : BitVec 3) (cond : Cond) (s : State) :
    exec (condShift sf xop cond) s = .next (whenCond cond (onCpu (shiftBySe sf xop)) s) := by
  cases sf <;> rfl

theorem exec_condShift_always (sf : ShFn) (xop : BitVec 3) (s : State) :
    exec (condShift sf xop .always) s = .next (onCpu (shiftBySe sf xop) s) :=
  exec_condShift sf xop .always s

theorem exec_immShift {sf : ShFn} (imm : shiftHasImm sf = true) (xop : BitVec 3) (n : BitVec 8) (s : State) :
    exec (immShift sf xop n) s = .next (onCpu (shiftPart sf xop n.toInt) s) := by
  cases sf with
  | lshiftHi | orLshiftHi | lshiftLo | orLshiftLo | ashiftHi | orAshiftHi | ashiftLo | orAshiftLo => rfl
  | normHi | orNormHi | normLo | orNormLo | expHi | expHix | expLo | expAdj => cases imm

theorem shiftWritesSr_of_hasImm {sf : ShFn} (imm : shiftHasImm sf = true) : shiftWritesSr sf = true := by
  cases sf with
  | lshiftHi | orLshiftHi | lshiftLo | orLshiftLo | ashiftHi | orAshiftHi | ashiftLo | orAshiftLo => rfl
  | normHi | orNormHi | normLo | orNormLo | expHi | expHix | expLo | expAdj => cases imm

/-- Settles O24: each of the twelve functions writes the result of its rule, at the shift code in SE. -/
theorem conditionalShifts : Obligations.ConditionalShifts := by
  unfold Obligations.ConditionalShifts
  intro sf xop cond s
  exact completesIf_compute (exec_condShift sf xop cond s) fun c writes =>
    shiftDone_shiftPart writes xop c.live.se.toInt c

/-- Settles O25: a function with an immediate form writes SR, here at the shift code of the word. -/
theorem immediateShifts : Obligations.ImmediateShifts := by
  unfold Obligations.ImmediateShifts
  intro sf xop n s imm
  exact ⟨_, exec_immShift imm xop n s, onlyCpu_onCpu _ s,
    shiftDone_shiftPart (shiftWritesSr_of_hasImm imm) xop n.toInt s.cpu⟩

/-! ### Exponents (45_shifter.md R244 to R247) -/

/-- `countEqual` counts the leading run (45_shifter.md R244, R246). -/
theorem leadingRun_countEqual (x : Word) (b : Bool) (start : Nat) : LeadingRun x start b (countEqual x b start) := by
  induction start with
  | zero => exact ⟨Nat.le_refl 0, fun j _ below => absurd below (Nat.not_lt_zero j), nofun⟩
  | succ n ih =>
    rw [countEqual]
    split
    next first =>
      refine ⟨by have := ih.bound; omega, fun j from_ below => ?_, fun more => ?_⟩
      · rcases Nat.lt_succ_iff_lt_or_eq.mp below with later | rfl
        · exact ih.equal j (by omega) later
        · exact first
      · rw [← ih.ends (by omega)]
        congr 1
        omega
    next differs => exact ⟨Nat.zero_le _, fun j from_ below => by omega, fun _ => Bool.eq_not.mpr differs⟩

theorem leadingRun_redundantSigns (x : Word) : LeadingRun x 15 x.msb (redundantSigns x) := by
  rw [BitVec.msb_eq_getLsbD_last]
  exact leadingRun_countEqual x _ 15

theorem redundantSigns_le (x : Word) : redundantSigns x ≤ 15 := (leadingRun_redundantSigns x).bound

section Exponents
variable (x : Word) (c : Cpu)

theorem Cpu.expHi_live : (expHi x c).live = { c.live with se := BitVec.ofInt 8 (-(redundantSigns x)) } := by
  simp [expHi, Cpu.setSe]

theorem Cpu.expHi_flag (k : Nat) : (expHi x c).flag k = if k = bitSS then x.msb else c.flag k := by
  by_cases ss : k = bitSS
  · subst ss
    simp [expHi, BitVec.msb_eq_getLsbD_last]
  · simp [expHi, ss, Ne.symm ss]

theorem expHix_of_clear (clear : c.flag bitAV = false) : expHix x c = expHi x c := by simp [expHix, clear]

theorem Cpu.expHix_live : (expHix x c).live =
    { c.live with se := if c.flag bitAV then 1 else BitVec.ofInt 8 (-(redundantSigns x)) } := by
  cases av : c.flag bitAV with
  | false => simp [expHix_of_clear x c av, Cpu.expHi_live]
  | true => simp [expHix, av, Cpu.setSe]

theorem Cpu.expHix_flag (k : Nat) : (expHix x c).flag k =
    if k = bitSS then (if c.flag bitAV then !x.msb else x.msb) else c.flag k := by
  cases av : c.flag bitAV with
  | false => simp [expHix_of_clear x c av, Cpu.expHi_flag]
  | true =>
    by_cases ss : k = bitSS
    · subst ss
      simp [expHix, av, BitVec.msb_eq_getLsbD_last]
    · simp [expHix, av, ss, Ne.symm ss]

theorem Cpu.expLo_live : (expLo x c).live = { c.live with
    se := if c.live.se.toInt = -15 then BitVec.ofInt 8 (-(15 + countEqual x (c.flag bitSS) 16)) else c.live.se } := by
  unfold expLo
  split <;> simp [Cpu.setSe]

/-- Of the live bank EXPADJ writes SB alone. -/
theorem Cpu.expAdj_live : (expAdj x c).live = { c.live with sb := (expAdj x c).live.sb } := by
  unfold expAdj
  split <;> simp

/-- SB keeps the larger exponent; the 5 bits hold every one there is (45_shifter.md R247). -/
theorem Cpu.expAdj_sb : (expAdj x c).live.sb.toInt = max c.live.sb.toInt (-(redundantSigns x : Int)) := by
  have bound := redundantSigns_le x
  unfold expAdj
  split
  next larger =>
    rw [Cpu.withLive_live, BitVec.toInt_ofInt_eq_self (by decide) (by omega) (by omega)]
    omega
  next => omega

end Exponents

/-- A function that changes no flag but SS keeps the others. -/
theorem flagsKept_of_flag_eq {c d : Cpu} {b : Bool} (flag : ∀ k, d.flag k = if k = bitSS then b else c.flag k) :
    FlagsKept [bitSS] c d := fun k _ other => by
  rw [flag, if_neg fun ss => other (List.mem_singleton.mpr ss)]

/-- Settles O26: the run of redundant sign bits, or for EXP (LO) of bits like SS, is what `countEqual` counts. -/
theorem exponentFunctions : Obligations.ExponentFunctions := by
  unfold Obligations.ExponentFunctions
  intro xop cond s
  have run (sf : ShFn) := exec_condShift sf xop cond s
  have only (sf : ShFn) (c : Cpu) := onlyCompute_shiftBySe c sf xop
  refine ⟨completesIf_compute (run .expHi) fun c => ?hi, completesIf_compute (run .expHix) fun c => ?hix,
    completesIf_compute (run .expLo) fun c => ?lo, completesIf_compute (run .expAdj) fun c => ?adj⟩
  case hi =>
    exact ⟨_, leadingRun_redundantSigns _, only .expHi c, flagsKept_of_flag_eq (Cpu.expHi_flag _ c),
      Cpu.expHi_flag _ c bitSS, Cpu.expHi_live _ c⟩
  case hix =>
    exact ⟨_, leadingRun_redundantSigns _, only .expHix c, flagsKept_of_flag_eq (Cpu.expHix_flag _ c),
      Cpu.expHix_flag _ c bitSS, Cpu.expHix_live _ c⟩
  case lo =>
    exact ⟨_, leadingRun_countEqual _ _ 16, only .expLo c, Cpu.expLo_astat c _, Cpu.expLo_live _ c⟩
  case adj =>
    exact ⟨_, leadingRun_redundantSigns _, only .expAdj c, Cpu.expAdj_astat c _, Cpu.expAdj_live _ c,
      Cpu.expAdj_sb _ c⟩

/-! ### Normalizing (45_shifter.md R240, R244) -/

/-- The run of redundant sign bits reaches up to the sign bit itself. -/
theorem LeadingRun.getLsbD_eq_msb {x : Word} {n j : Nat} (run : LeadingRun x 15 x.msb n) (inRun : 15 - n ≤ j)
    (hj : j < 16) : x.getLsbD j = x.msb := by
  rcases Nat.lt_or_eq_of_le (Nat.le_of_lt_succ hj) with lower | rfl
  · exact run.equal j inRun lower
  · exact (BitVec.msb_eq_getLsbD_last x).symm

/-- A word with `n` redundant sign bits is a signed number of `16 - n` bits: shifted right by `15 - n` only the sign is
left of it. -/
theorem toInt_range_of_leadingRun {x : Word} {n : Nat} (run : LeadingRun x 15 x.msb n) :
    -2 ^ (15 - n) ≤ x.toInt ∧ x.toInt < 2 ^ (15 - n) := by
  have signs : x.sshiftRight (15 - n) = if x.msb then BitVec.allOnes 16 else 0 := by
    apply BitVec.eq_of_getLsbD_eq
    intro j hj
    have bit : (x.sshiftRight (15 - n)).getLsbD j = x.msb := by
      rw [BitVec.getLsbD_sshiftRight]
      split
      next within => simp [hj, run.getLsbD_eq_msb (by omega) within]
      next => simp [hj]
    rw [bit]
    split
    next negative => rw [negative, BitVec.getLsbD_allOnes, decide_eq_true hj]
    next positive => exact (Bool.eq_false_iff.mpr positive).trans BitVec.getLsbD_zero.symm
  have quotient : x.toInt / 2 ^ (15 - n) = if x.msb then -1 else 0 := by
    have shifted := congrArg BitVec.toInt signs
    rw [BitVec.toInt_sshiftRight, Int.shiftRight_eq_div_pow] at shifted
    push_cast at shifted
    rw [shifted]
    split <;> rfl
  have positive : (0 : Int) < 2 ^ (15 - n) := by positivity
  have low := (Int.le_ediv_iff_mul_le (a := -1) (b := x.toInt) positive).mp (by rw [quotient]; split <;> omega)
  have high := (Int.ediv_lt_iff_lt_mul (a := x.toInt) (b := 1) positive).mp (by rw [quotient]; split <;> omega)
  omega

/-- NORM (HI) by a count that is not positive is a left shift (45_shifter.md R240). -/
theorem normHiResult_neg (x : Word) (ac : Bool) (n : Nat) : normHiResult x ac (-n) = hiField x <<< n := by
  apply BitVec.eq_of_getLsbD_eq
  intro j hj
  rw [normHiResult_getLsbD x ac _ hj, getLsbD_shiftLeft_eq_patternBit _ ac n hj, sub_eq_add_neg]

/-- A left shift by the redundant sign bits loses none that matters. -/
theorem hiField_shiftLeft_toInt {x : Word} {n : Nat} (run : LeadingRun x 15 x.msb n) :
    (hiField x <<< n).toInt = x.toInt * 65536 * 2 ^ n := by
  obtain ⟨low, high⟩ := toInt_range_of_leadingRun run
  have positive : (0 : Int) < 2 ^ n := by positivity
  have whole : (2 : Int) ^ (15 - n) * 2 ^ n = 32768 := by
    rw [← pow_add, Nat.sub_add_cancel run.bound]
    norm_num
  have lower := mul_le_mul_of_nonneg_right low positive.le
  have upper := mul_lt_mul_of_pos_right high positive
  have place : x.toInt * 65536 * 2 ^ n = 65536 * (x.toInt * 2 ^ n) := by ring
  rw [neg_mul, whole] at lower
  rw [whole] at upper
  rw [← ofInt_mul_two_pow, hiField_toInt, place, BitVec.toInt_ofInt_eq_self (by decide) (by omega) (by omega)]

/-- A left shift by the redundant sign bits leaves the sign in bit 31 and, next to it, the first bit that differs; when
all bits are alike, the zero below the word. -/
theorem hiField_shiftLeft_top {x : Word} {n : Nat} (run : LeadingRun x 15 x.msb n) (nonzero : x ≠ 0) :
    (hiField x <<< n).getLsbD 31 ≠ (hiField x <<< n).getLsbD 30 := by
  have bound := run.bound
  have sign : (hiField x <<< n).getLsbD 31 = x.msb := by
    rw [getLsbD_shiftLeft_eq_patternBit _ false n (by decide), patternBit_hiField, fieldBit, if_neg (by omega),
      if_pos (by omega), run.getLsbD_eq_msb (by omega) (by omega)]
  rw [sign, getLsbD_shiftLeft_eq_patternBit _ false n (by decide), patternBit_hiField, fieldBit]
  rcases Nat.lt_or_eq_of_le bound with differs | rfl
  · rw [if_neg (by omega), if_pos (by omega), show ((30 : Nat) - (n : Int) - 16).toNat = 15 - 1 - n by omega,
      run.ends differs]
    cases x.msb <;> decide
  · intro positive
    refine nonzero (BitVec.eq_of_getLsbD_eq fun j hj => ?_)
    rw [run.getLsbD_eq_msb (by omega) hj, positive]
    simp

/-- SE is none of the shifter's operands (45_shifter.md R230). -/
theorem shX_of_live {c d : Cpu} {e : BitVec 8} (live : d.live = { c.live with se := e }) (xop : BitVec 3) :
    shX xop d = shX xop c := by
  rw [shX, shX, live]
  cases shXTable[xop.toNat] <;> rfl

/-- EXP (HI) leaves minus the count in SE, which 8 bits hold (45_shifter.md R244). -/
theorem expHi_se_toInt (x : Word) (c : Cpu) : (expHi x c).live.se.toInt = -(redundantSigns x : Int) := by
  have bound := redundantSigns_le x
  rw [Cpu.expHi_live]
  exact BitVec.toInt_ofInt_eq_self (by decide) (by omega) (by omega)

/-- NORM (HI) after EXP (HI) shifts the same operand left by its redundant sign bits (45_shifter.md R240, R244). -/
theorem normHi_after_expHi_sr (xop : BitVec 3) (c : Cpu) :
    (shiftBySe .normHi xop (shiftBySe .expHi xop c)).live.sr = hiField (shX xop c) <<< redundantSigns (shX xop c) := by
  have after : shiftBySe .expHi xop c = expHi (shX xop c) c := rfl
  rw [after, shiftBySe, shiftPart_eq_srWrite rfl, Cpu.srWrite_sr, expHi_se_toInt, shX_of_live (Cpu.expHi_live _ c)]
  exact normHiResult_neg _ _ _

/-- Settles O27: the run that EXP (HI) counts is what NORM (HI) shifts out. -/
theorem expThenNormNormalizes : Obligations.ExpThenNormNormalizes := by
  unfold Obligations.ExpThenNormNormalizes
  intro xop s
  refine ⟨_, _, exec_condShift_always .expHi xop s, exec_condShift_always .normHi xop _, ?_⟩
  have run := leadingRun_redundantSigns (shX xop s.cpu)
  have exponent : (shiftBySe .expHi xop s.cpu).live.se.toInt = -(redundantSigns (shX xop s.cpu) : Int) :=
    expHi_se_toInt _ s.cpu
  simp only [State.onCpu_cpu, exponent, normHi_after_expHi_sr, neg_neg, Int.toNat_natCast]
  exact ⟨by omega, hiField_shiftLeft_toInt run, hiField_shiftLeft_top run⟩

end Sys2Proof.Machine
end

/-! # The multifunction instructions

The part writes the live bank and ASTAT alone, so it moves no address and leaves PX and both memories. One equation for
each kind of access therefore gives the whole state after an instruction in terms of the state before it, and the
statements read off what it says. A compute part and a shift part are served by the same equations: what a part is made
of plays no role.
-/
section
namespace Sys2Proof.Machine

/-! ### The part does what its instruction of its own does (46_multifunction.md R261, R267) -/

theorem exec_condCompute_always (z : Dest) (amf : Amf) (yop : BitVec 2) (xop : BitVec 3) (s : State) :
    exec (condCompute z amf yop xop .always) s = .next (onCpu (computePart z amf yop xop) s) := by
  cases amf with
  | alu fn => exact exec_condAlu_always z fn yop xop s
  | mac fn => exact exec_condMac_always z fn yop xop s

/-! ### The rows of one form differ only in the range of the function code (30_encoding.md R103) -/

section Rows
variable (g : Gen) (z : Dest) (amf : Amf) (yop : BitVec 2) (xop : BitVec 3) (dreg : BitVec 4) (i m : BitVec 2)
variable (s : State)

theorem exec_computeDmRead : exec (computeDmRead g z amf yop xop dreg i m) s =
    .next (withDmRead (computePart z amf yop xop) (dagSlot g i) (dagSlot g m) dreg s) := by
  cases amf with
  | alu fn => rfl
  | mac fn => cases fn <;> rfl

theorem exec_computeDmWrite : exec (computeDmWrite g z amf yop xop dreg i m) s =
    .next (withDmWrite (computePart z amf yop xop) (dagSlot g i) (dagSlot g m) dreg s) := by
  cases amf with
  | alu fn => rfl
  | mac fn => cases fn <;> rfl

theorem exec_computePmRead : exec (computePmRead z amf yop xop dreg i m) s =
    .next (withPmRead (computePart z amf yop xop) (dagSlot .dag2 i) (dagSlot .dag2 m) dreg s) := by
  cases amf with
  | alu fn => rfl
  | mac fn => cases fn <;> rfl

theorem exec_computePmWrite : exec (computePmWrite z amf yop xop dreg i m) s =
    .next (withPmWrite (computePart z amf yop xop) (dagSlot .dag2 i) (dagSlot .dag2 m) dreg s) := by
  cases amf with
  | alu fn => rfl
  | mac fn => cases fn <;> rfl

end Rows

/-! ### What a computation leaves of the address generators -/

section Addresses
variable {c d : Cpu} (only : OnlyCompute c d)
include only

theorem OnlyCompute.px : d.px = c.px := by rw [only.rest]

theorem OnlyCompute.i : d.i = c.i := by rw [only.rest]

theorem OnlyCompute.bitRev : d.bitRev = c.bitRev := by
  rw [only.rest]
  rfl

/-- The address of an access is that of the index as it was (46_multifunction.md R260). -/
theorem OnlyCompute.dmAddress (k : Fin 8) : d.dmAddress k = c.dmAddress k := by
  simp only [Cpu.dmAddress, only.i, only.bitRev]

@[inherit_doc OnlyCompute.dmAddress] theorem OnlyCompute.pmAddress (k : Fin 8) : d.pmAddress k = c.i[k] := by
  rw [Cpu.pmAddress, only.i]

end Addresses

/-! ### The state after each kind of access, in terms of the state before the part -/

section Equations
variable {part : Cpu → Cpu} (s : State) (only : OnlyCompute s.cpu (part s.cpu)) (k m : Fin 8) (dreg : BitVec 4)
include only

theorem withDmRead_eq : withDmRead part k m dreg s =
    regWrite (dregSlot dreg) (s.dm.dmWord (s.cpu.dmAddress k))
      { s with cpu := (part s.cpu).dagUpdate k m, bus := s.bus ++ [.dmRead (s.cpu.dmAddress k)] } := by
  rw [← only.dmAddress]
  rfl

theorem withDmWrite_eq : withDmWrite part k m dreg s =
    let a := s.cpu.dmAddress k
    let v := regRead (dregSlot dreg) s.cpu
    { s with cpu := (part s.cpu).dagUpdate k m, dm := s.dm.setDmWord a v, bus := s.bus ++ [.dmWrite a v] } := by
  rw [← only.dmAddress]
  rfl

theorem withPmRead_eq : withPmRead part k m dreg s =
    let w := s.pm.pmWord s.cpu.i[k]
    regWrite (dregSlot dreg) (w.extractLsb' 8 16)
      { s with
        cpu := Cpu.dagUpdate k m { part s.cpu with px := w.extractLsb' 0 8 }
        bus := s.bus ++ [.pmRead s.cpu.i[k]] } := by
  rw [← only.pmAddress]
  rfl

theorem withPmWrite_eq : withPmWrite part k m dreg s =
    let a := s.cpu.i[k]
    let w := regRead (dregSlot dreg) s.cpu ++ s.cpu.px
    { s with cpu := (part s.cpu).dagUpdate k m, pm := s.pm.setPmWord a w, bus := s.bus ++ [.pmWrite a w] } := by
  rw [← only.pmAddress, ← only.px]
  rfl

/-- The move of the data index does not reach the program index, so the second address too is that of the index as it
was (46_multifunction.md R266). -/
theorem withDualRead_eq (dd pd : BitVec 2) {dmi pmi : Fin 8} (apart : pmi ≠ dmi) (dmm pmm : Fin 8) :
    withDualRead part dd pd dmi dmm pmi pmm s =
      let w := s.pm.pmWord s.cpu.i[pmi]
      regWrite (dregSlot (4 + pd.setWidth 4)) (w.extractLsb' 8 16)
        (regWrite (dregSlot (dd.setWidth 4)) (s.dm.dmWord (s.cpu.dmAddress dmi))
          { s with
            cpu := Cpu.dagUpdate pmi pmm { (part s.cpu).dagUpdate dmi dmm with px := w.extractLsb' 0 8 }
            bus := s.bus ++ [.dmRead (s.cpu.dmAddress dmi), .pmRead s.cpu.i[pmi]] }) := by
  have index : ((part s.cpu).dagUpdate dmi dmm).pmAddress pmi = s.cpu.i[pmi] :=
    ((indexMoved_dagUpdate dmi dmm (part s.cpu)).others pmi apart).trans (only.pmAddress pmi)
  have bus : s.bus ++ [.dmRead (s.cpu.dmAddress dmi), .pmRead s.cpu.i[pmi]] =
      s.bus ++ [.dmRead (s.cpu.dmAddress dmi)] ++ [.pmRead s.cpu.i[pmi]] := by simp
  rw [bus, ← only.dmAddress, ← index]
  rfl

end Equations

/-! ### What follows an access -/

theorem OnlyCpu.trans {s t u : State} (first : OnlyCpu s t) (second : OnlyCpu t u) : OnlyCpu s u where
  dmByte k := (second.dmByte k).trans (first.dmByte k)
  pmByte k := (second.pmByte k).trans (first.pmByte k)
  bus := second.bus.trans first.bus
  acks := second.acks.trans first.acks
  irqCallback := second.irqCallback.trans first.irqCallback
  evalReq := second.evalReq.trans first.evalReq

/-- The register of a read is written last, and the write stays within the Machine State (46_multifunction.md R262,
R264). -/
theorem writeDreg_after_read (a : Access) (c : Cpu) (v : Word) (dreg : BitVec 4) (s : State) :
    let t := regWrite (dregSlot dreg) v { s with cpu := c, bus := s.bus ++ [a] }
    SlotWritten ⟨0, dreg⟩ v c t.cpu ∧ DmKept s t ∧ PmKept s t ∧ OneAccess a s t := by
  let read : State := { s with cpu := c, bus := s.bus ++ [a] }
  have kept := onlyCpu_regWrite_dregSlot v read dreg
  exact ⟨slotWritten_regWrite (dregSlot dreg) v read, kept.dmByte, kept.pmByte,
    ⟨kept.bus, kept.acks, kept.irqCallback, kept.evalReq⟩⟩

/-- Program memory with one word replaced, whatever became of the rest of the state. -/
theorem pmStored_of_pm_eq {a : Addr} {v : PWord} {s t : State} (replaced : t.pm = s.pm.setPmWord a v) :
    PmStored a v s t where
  stored := by rw [replaced, Memory.pmWord_setPmWord, if_pos rfl]
  others k high low tag := by rw [replaced, Memory.readByte_setPmWord, if_neg tag, if_neg low, if_neg high]

/-! ### The statements, for any part -/

section Parts
variable {part : Cpu → Cpu} (s : State)

theorem withMove_does (ddreg sdreg : BitVec 4) :
    let t := withMove part ddreg sdreg s
    OnlyCpu s t ∧ SlotWritten ⟨0, ddreg⟩ (regRead ⟨0, sdreg⟩ s.cpu) (part s.cpu) t.cpu :=
  ⟨(onlyCpu_onCpu part s).trans (onlyCpu_regWrite_dregSlot _ _ ddreg), 
    slotWritten_regWrite (dregSlot ddreg) (regRead (dregSlot sdreg) s.cpu) (onCpu part s)⟩

variable (only : OnlyCompute s.cpu (part s.cpu)) (k m : Fin 8) (dreg : BitVec 4)
include only

theorem withDmRead_does :
    let a := s.cpu.dmAddress k
    let t := withDmRead part k m dreg s
    ∃ c, IndexMoved k m (part s.cpu) c ∧ SlotWritten ⟨0, dreg⟩ (s.dm.dmWord a) c t.cpu ∧ DmKept s t ∧ PmKept s t ∧
      OneAccess (.dmRead a) s t := by
  rw [withDmRead_eq s only]
  exact ⟨_, indexMoved_dagUpdate k m _, writeDreg_after_read _ _ _ dreg s⟩

theorem withPmRead_does :
    let w := s.pm.pmWord s.cpu.i[k]
    let t := withPmRead part k m dreg s
    ∃ c, IndexMoved k m { part s.cpu with px := w.extractLsb' 0 8 } c ∧
      SlotWritten ⟨0, dreg⟩ (w.extractLsb' 8 16) c t.cpu ∧ DmKept s t ∧ PmKept s t ∧
      OneAccess (.pmRead s.cpu.i[k]) s t := by
  rw [withPmRead_eq s only]
  exact ⟨_, indexMoved_dagUpdate k m _, writeDreg_after_read _ _ _ dreg s⟩

theorem withDmWrite_does :
    let a := s.cpu.dmAddress k
    let v := regRead ⟨0, dreg⟩ s.cpu
    let t := withDmWrite part k m dreg s
    IndexMoved k m (part s.cpu) t.cpu ∧ DmStored a v s t ∧ PmKept s t ∧ OneAccess (.dmWrite a v) s t := by
  rw [withDmWrite_eq s only]
  exact ⟨indexMoved_dagUpdate k m _, dmStored_of_dm_eq rfl, fun _ => rfl, ⟨rfl, rfl, rfl, rfl⟩⟩

theorem withPmWrite_does :
    let a := s.cpu.i[k]
    let w : PWord := regRead ⟨0, dreg⟩ s.cpu ++ s.cpu.px
    let t := withPmWrite part k m dreg s
    IndexMoved k m (part s.cpu) t.cpu ∧ PmStored a w s t ∧ DmKept s t ∧ OneAccess (.pmWrite a w) s t := by
  rw [withPmWrite_eq s only]
  exact ⟨indexMoved_dagUpdate k m _, pmStored_of_pm_eq rfl, fun _ => rfl, ⟨rfl, rfl, rfl, rfl⟩⟩

end Parts

/-- Settles O39: the source is read before the part, and written after it. -/
theorem computeWithMove : Obligations.ComputeWithMove := by
  unfold Obligations.ComputeWithMove
  exact ⟨fun z amf yop xop ddreg sdreg s =>
      ⟨_, _, exec_condCompute_always z amf yop xop s, rfl, withMove_does s ddreg sdreg⟩,
    fun sf xop ddreg sdreg s => ⟨_, _, exec_condShift_always sf xop s, rfl, withMove_does s ddreg sdreg⟩⟩

/-- Settles O40: the part moves no address, so the read is at the address of the index as it was. -/
theorem computeWithDmRead : Obligations.ComputeWithDmRead := by
  unfold Obligations.ComputeWithDmRead
  refine fun g dreg i m s => ⟨fun z amf yop xop => ?compute, fun sf xop => ?shift⟩
  case compute =>
    exact ⟨_, _, exec_condCompute_always z amf yop xop s, exec_computeDmRead g z amf yop xop dreg i m s,
      withDmRead_does s (onlyCompute_computePart _ z amf yop xop) _ _ dreg⟩
  case shift =>
    exact ⟨_, _, exec_condShift_always sf xop s, rfl, withDmRead_does s (onlyCompute_shiftBySe _ sf xop) _ _ dreg⟩

/-- Settles O41: the register is read before the part, and the part moves no address. -/
theorem computeWithDmWrite : Obligations.ComputeWithDmWrite := by
  unfold Obligations.ComputeWithDmWrite
  refine fun g dreg i m s => ⟨fun z amf yop xop => ?compute, fun sf xop => ?shift⟩
  case compute =>
    exact ⟨_, _, exec_condCompute_always z amf yop xop s, exec_computeDmWrite g z amf yop xop dreg i m s,
      withDmWrite_does s (onlyCompute_computePart _ z amf yop xop) _ _ dreg⟩
  case shift =>
    exact ⟨_, _, exec_condShift_always sf xop s, rfl, withDmWrite_does s (onlyCompute_shiftBySe _ sf xop) _ _ dreg⟩

/-- Settles O42: the tag is in PX before the index moves, and the register is written last. -/
theorem computeWithPmRead : Obligations.ComputeWithPmRead := by
  unfold Obligations.ComputeWithPmRead
  refine fun dreg i m s => ⟨fun z amf yop xop => ?compute, fun sf xop => ?shift⟩
  case compute =>
    exact ⟨_, _, exec_condCompute_always z amf yop xop s, exec_computePmRead z amf yop xop dreg i m s,
      withPmRead_does s (onlyCompute_computePart _ z amf yop xop) _ _ dreg⟩
  case shift =>
    exact ⟨_, _, exec_condShift_always sf xop s, rfl, withPmRead_does s (onlyCompute_shiftBySe _ sf xop) _ _ dreg⟩

/-- Settles O43: the part leaves PX, so the tag stored is the old one. -/
theorem computeWithPmWrite : Obligations.ComputeWithPmWrite := by
  unfold Obligations.ComputeWithPmWrite
  refine fun dreg i m s => ⟨fun z amf yop xop => ?compute, fun sf xop => ?shift⟩
  case compute =>
    exact ⟨_, _, exec_condCompute_always z amf yop xop s, exec_computePmWrite z amf yop xop dreg i m s,
      withPmWrite_does s (onlyCompute_computePart _ z amf yop xop) _ _ dreg⟩
  case shift =>
    exact ⟨_, _, exec_condShift_always sf xop s, rfl, withPmWrite_does s (onlyCompute_shiftBySe _ sf xop) _ _ dreg⟩

/-! ### The dual read (46_multifunction.md R266) -/

/-- The two generators have no slot in common (30_encoding.md R108). -/
theorem dagSlot_dag2_ne_dag1 (p d : BitVec 2) : dagSlot .dag2 p ≠ dagSlot .dag1 d := by
  revert p d
  decide

/-- PD names the four registers that follow those of DD (10_state.md R35). -/
theorem four_add_setWidth (pd : BitVec 2) : 4 + pd.setWidth 4 = BitVec.ofNat 4 (4 + pd.toNat) := by
  rw [BitVec.ofNat_add, BitVec.ofNat_toNat]
  rfl

/-- Two data registers written one after the other. -/
theorem writeDregs (x y : BitVec 4) (v w : Word) (s : State) :
    let t := regWrite (dregSlot y) w (regWrite (dregSlot x) v s)
    OnlyCpu s t ∧ ∃ c, SlotWritten ⟨0, x⟩ v s.cpu c ∧ SlotWritten ⟨0, y⟩ w c t.cpu := by
  let first := regWrite (dregSlot x) v s
  exact ⟨(onlyCpu_regWrite_dregSlot v s x).trans (onlyCpu_regWrite_dregSlot w first y), first.cpu,
    slotWritten_regWrite (dregSlot x) v s, slotWritten_regWrite (dregSlot y) w first⟩

/-- Settles O44: the two indices are of different generators, so each moves by itself, and the two registers are written
after both reads, that of DD first. -/
theorem computeWithDualRead : Obligations.ComputeWithDualRead := by
  unfold Obligations.ComputeWithDualRead
  intro pd dd amf yop xop pmi pmm dmi dmm s da pa w
  let part := computePart .primary amf yop xop
  have only : OnlyCompute s.cpu (part s.cpu) := onlyCompute_computePart _ _ amf yop xop
  have run : exec (.dualRead pd dd amf yop xop pmi pmm dmi dmm) s = .next (withDualRead part dd pd _ _ _ _ s) := rfl
  rw [withDualRead_eq s only dd pd (dagSlot_dag2_ne_dag1 pmi dmi), four_add_setWidth, ← BitVec.ofNat_toNat] at run
  obtain ⟨kept, c₃, first, second⟩ := writeDregs (BitVec.ofNat 4 dd.toNat) (BitVec.ofNat 4 (4 + pd.toNat))
    (s.dm.dmWord da) (w.extractLsb' 8 16) _
  exact ⟨_, _, _, _, c₃, exec_condCompute_always .primary amf yop xop s, run, indexMoved_dagUpdate _ _ _,
    indexMoved_dagUpdate _ _ _, first, second, kept.dmByte, kept.pmByte, kept.bus, kept.acks, kept.irqCallback,
    kept.evalReq⟩

end Sys2Proof.Machine
end

/-! # Program flow

The counter condition, the loop test, and the instructions that jump, call, return and open a loop. Their stack
operations are the pushes and pops judged in the parts above; a push and the pop after it cancel, on the stack and in
SSTAT, and that is the return from a call.
-/
section
namespace Sys2Proof.Machine

/-! ### A step and the instructions without effect -/

/-- Settles O2: the state the instruction executes in is `enterInstr`'s, and what follows it is `retire`. -/
theorem stepRunsTheDecodedInstruction : Obligations.StepRunsTheDecodedInstruction := by
  unfold Obligations.StepRunsTheDecodedInstruction
  intro i s _ decoded
  obtain ⟨t, run, _⟩ := exec_performs i (enterInstr s)
  have stepped : step s = .next (retire t) := by simp only [step, fetchWord_word, decoded, run]
  exact ⟨enterInstr s, t, rfl, rfl, rfl, rfl, rfl, rfl, rfl, run, stepped⟩

/-- Settles O45: the meaning of each of the six is the state itself. -/
theorem nopsChangeNothing : Obligations.NopsChangeNothing := by
  unfold Obligations.NopsChangeNothing
  exact fun _ => ⟨rfl, rfl, rfl, rfl, rfl, rfl⟩

/-! ### Conditions (47_program_flow.md R281, R282) -/

/-- Settles O28: each code names its condition; the model writes LT as an exclusive or, the statement as AN ≠ AV. -/
theorem conditionTable : Obligations.ConditionTable := by
  unfold Obligations.ConditionTable
  intro c z lt cond
  have differ : lt = (c.flag bitAN ^^ c.flag bitAV) := congrFun₂ Bool.bne_eq_xor _ _
  clear_value lt
  subst differ
  exact ⟨rfl, rfl, rfl, rfl, rfl, rfl, rfl, rfl, rfl, rfl, rfl, rfl, rfl, rfl, rfl, rfl⟩

theorem evalCond_counter_of_ne {c : Cpu} (more : c.cntr - 1 ≠ 0) :
    evalCond .notCe c = (true, { c with cntr := c.cntr - 1 }) := (evalCond_counter c).trans (if_neg more)

theorem evalCond_counter_of_eq {c : Cpu} (last : c.cntr - 1 = 0) : evalCond .notCe c = (false, c.cntrPop) :=
  (evalCond_counter c).trans (if_pos last)

/-- Settles O29: at zero the counter is popped, and a counter pop writes the bits of its own stack alone. -/
theorem counterCondition : Obligations.CounterCondition := by
  unfold Obligations.CounterCondition
  refine fun c => ⟨evalCond_counter_of_ne, fun last => ?_⟩
  rw [evalCond_counter_of_eq last]
  exact ⟨rfl, c.cntrStk.top, c.cntrStk.delivers_top, rfl, c.cntrStk.popped_pop, popFlags_sstatPop (by decide) _ _,
    stackFlagsKept_sstatPop (by decide) (by decide) _ _, stackFlagsKept_sstatPop (by decide) (by decide) _ _,
    stackFlagsKept_sstatPop (by decide) (by decide) _ _⟩

/-- What the evaluation after `k` others leaves of a count, in 14 bits. -/
theorem countLeft_sub_one {count k : Nat} (low : k < count) :
    BitVec.ofNat 14 count - BitVec.ofNat 14 k - 1 = BitVec.ofNat 14 (count - (k + 1)) := by
  apply BitVec.eq_of_toNat_eq
  simp only [BitVec.toNat_sub, BitVec.ofNat_eq_ofNat, BitVec.toNat_ofNat]
  omega

theorem countLeft_sub_one_ne {count k : Nat} (bound : count ≤ 16384) (more : k + 1 < count) :
    BitVec.ofNat 14 count - BitVec.ofNat 14 k - 1 ≠ 0 := by
  rw [countLeft_sub_one (by omega)]
  intro zero
  have left : (count - (k + 1)) % 16384 = 0 := congrArg BitVec.toNat zero
  omega

/-- Until a count runs out its evaluations take one off CNTR each, and change nothing else. -/
theorem countdown {c : Cpu} {count : Nat} (bound : count ≤ 16384) (cntr : c.cntr = BitVec.ofNat 14 count) (k : Nat)
    (low : k < count) :
    (fun d : Cpu => (evalCond .notCe d).2)^[k] c = { c with cntr := c.cntr - BitVec.ofNat 14 k } := by
  induction k with
  | zero => simp
  | succ k ih =>
    have more : c.cntr - BitVec.ofNat 14 k - 1 ≠ 0 := cntr ▸ countLeft_sub_one_ne bound low
    rw [Function.iterate_succ_apply', ih (Nat.lt_of_succ_lt low), evalCond_counter_of_ne more, BitVec.ofNat_add,
      ← BitVec.sub_sub]
    rfl

/-- Settles O30: what the evaluations before it left of the count decides each evaluation, and the last finds 1. -/
theorem counterRunsOutAfterItsCount : Obligations.CounterRunsOutAfterItsCount := by
  unfold Obligations.CounterRunsOutAfterItsCount
  intro c count positive bound cntr after
  have reached : ∀ k, k < count → after k = { c with cntr := c.cntr - BitVec.ofNat 14 k } := countdown bound cntr
  refine ⟨fun k more => ?_, ?_⟩
  · have left : c.cntr - BitVec.ofNat 14 k - 1 ≠ 0 := cntr ▸ countLeft_sub_one_ne bound more
    rw [reached k (Nat.lt_of_succ_lt more)]
    exact ⟨congrArg Prod.fst (evalCond_counter_of_ne left), rfl⟩
  · have last : c.cntr - BitVec.ofNat 14 (count - 1) - 1 = 0 := by
      rw [cntr, countLeft_sub_one (by omega), Nat.sub_add_cancel positive, Nat.sub_self]
      rfl
    rw [reached (count - 1) (by omega)]
    exact congrArg Prod.fst (evalCond_counter_of_eq last)

/-! ### Pushes and pops of the PC stack and the loop stack (10_state.md R44, R47) -/

theorem PushFlags.kept_after {e : Nat} {full : Bool} {f g h : BitVec 8} (push : PushFlags e full f g)
    (kept : StackFlagsKept e g h) : PushFlags e full f h :=
  ⟨kept.1.trans push.emptyBit, kept.2.trans push.overBit⟩

theorem Cpu.pcPushed_pcPush (v : Addr) (c : Cpu) : PcPushed v c (c.pcPush v) where
  rest := rfl
  stack := c.pcStk.pushed_push v
  flags := pushFlags_sstatPush c.pcStk v 0 (by decide) _
  others := ⟨stackFlagsKept_sstatPush (by decide) _ _, stackFlagsKept_sstatPush (by decide) _ _,
    stackFlagsKept_sstatPush (by decide) _ _⟩

theorem Cpu.pcPopped_pcPop (c : Cpu) : PcPopped c c.pcPop where
  rest := rfl
  stack := c.pcStk.popped_pop
  flags := popFlags_sstatPop (by decide) _ _
  others := ⟨stackFlagsKept_sstatPop (by decide) (by decide) _ _, stackFlagsKept_sstatPop (by decide) (by decide) _ _,
    stackFlagsKept_sstatPop (by decide) (by decide) _ _⟩

theorem Cpu.stackFlagsKept_loopPush {j : Nat} (below : j + 1 < 6) (e : LoopEntry) (c : Cpu) :
    StackFlagsKept j c.sstat (c.loopPush e).sstat := stackFlagsKept_sstatPush (.inr below) _ _

theorem Cpu.stackFlagsKept_loopPop {j : Nat} (below : j + 1 < 6) (c : Cpu) :
    StackFlagsKept j c.sstat c.loopPop.sstat := stackFlagsKept_sstatPop (by omega) (by omega) _ _

/-! ### The loop test (47_program_flow.md R280, R292) -/

theorem HwStack.delivers_iff {α : Type} {n : Nat} [NeZero n] {st : HwStack α n} {v : α} :
    Delivers st v ↔ st.top = v := by
  rw [Delivers, show st.slots[st.sp.val - 1]? = some st.top from st.delivers_top, Option.some_inj]

/-- The instruction at `a` is the last of the open loop `l` (10_state.md R47). -/
theorem Cpu.loopEndsAt_eq_some_iff {a : Addr} {c : Cpu} {l : LoopEntry} :
    c.loopEndsAt a = some l ↔ 0 < c.loopStk.sp.val ∧ Delivers c.loopStk l ∧ l.endAddr = a := by
  by_cases empty : c.loopStk.sp.val = 0
  · simp [Cpu.loopEndsAt, Cpu.openLoop, empty]
  · simp [Cpu.loopEndsAt, Cpu.openLoop, empty, HwStack.delivers_iff, Option.filter_eq_some_iff, Nat.pos_of_ne_zero]

theorem Cpu.advance_of_none {a : Addr} {c : Cpu} (elsewhere : c.loopEndsAt a = none) :
    c.advance a = { c with pc := a + 1 } := by
  rw [Cpu.advance, elsewhere]

theorem Cpu.advance_of_some {a : Addr} {c : Cpu} {l : LoopEntry} (last : c.loopEndsAt a = some l) : c.advance a =
    if (evalCond l.term c).1 then { (evalCond l.term c).2 with pc := c.pcTop }
    else { (evalCond l.term c).2.loopPop.pcPop with pc := a + 1 } := by
  rw [Cpu.advance, last]
  simp [Cpu.pcTop]

/-- Settles O3: the two pops that close a loop write different bits of SSTAT. -/
theorem loopTestChoosesTheNextPc : Obligations.LoopTestChoosesTheNextPc := by
  unfold Obligations.LoopTestChoosesTheNextPc
  intro s a e
  refine ⟨fun elsewhere => Cpu.advance_of_none ?_, fun l isOpen top atEnd => ?_⟩
  · rw [Option.eq_none_iff_forall_ne_some]
    intro l last
    obtain ⟨isOpen, top, atEnd⟩ := Cpu.loopEndsAt_eq_some_iff.mp last
    exact elsewhere.elim isOpen.ne' fun other => other l top atEnd
  have chosen : e = _ := Cpu.advance_of_some (Cpu.loopEndsAt_eq_some_iff.mpr ⟨isOpen, top, atEnd⟩)
  refine ⟨fun goesOn => ⟨s.cpu.pcTop, s.cpu.pcStk.delivers_top, chosen.trans (if_pos goesOn)⟩, fun ends => ?_⟩
  rw [chosen.trans (if_neg (ne_true_of_eq_false ends))]
  let c := (evalCond l.term s.cpu).2
  have pcPop := c.loopPop.pcPopped_pcPop
  obtain ⟨counterKept, statusKept, loopKept⟩ := pcPop.others
  exact ⟨rfl, c.loopStk.popped_pop, pcPop.stack, (popFlags_sstatPop (by decide) _ _).kept_after loopKept,
    pcPop.flags.of_kept_before (c.stackFlagsKept_loopPop (by decide)),
    (c.stackFlagsKept_loopPop (by decide)).trans counterKept, (c.stackFlagsKept_loopPop (by decide)).trans statusKept⟩

/-! ### Jumps, calls and loops (47_program_flow.md R284 to R287, R291) -/

/-- Settles O46: under its condition a jump sets PC, and a call pushes PC before that. -/
theorem jumpsAndCalls : Obligations.JumpsAndCalls := by
  unfold Obligations.JumpsAndCalls
  exact fun cond s => ⟨fun addr => completesIf_compute rfl fun _ => rfl, fun i => completesIf_compute rfl fun _ => rfl,
    fun addr => completesIf_compute rfl fun c => ⟨rfl, c.pcPushed_pcPush c.pc⟩,
    fun i => completesIf_compute rfl fun c => ⟨rfl, c.pcPushed_pcPush c.pc⟩⟩

/-- Settles O49: the push on the PC stack leaves the loop stack and its bits of SSTAT alone, and the other way round. -/
theorem doUntilOpensALoop : Obligations.DoUntilOpensALoop := by
  unfold Obligations.DoUntilOpensALoop
  intro addr term s
  let c := s.cpu
  let loop : LoopEntry := ⟨addr, term⟩
  have pcPush := (c.loopPush loop).pcPushed_pcPush c.pc
  obtain ⟨counterKept, statusKept, loopKept⟩ := pcPush.others
  exact ⟨_, rfl, onlyCpu_onCpu _ s, rfl, c.loopStk.pushed_push loop, pcPush.stack,
    (pushFlags_sstatPush c.loopStk loop 6 (by decide) _).kept_after loopKept,
    pcPush.flags.of_kept_before (c.stackFlagsKept_loopPush (by decide) loop),
    (c.stackFlagsKept_loopPush (by decide) loop).trans counterKept,
    (c.stackFlagsKept_loopPush (by decide) loop).trans statusKept⟩

/-! ### Returns (47_program_flow.md R289, R290) -/

/-- A pop undoes a push that found room: it delivers what was pushed, and the entries below are the old ones
(10_state.md R42, R43). -/
theorem Pushed.popped {α : Type} {n : Nat} {v : α} {a b d : HwStack α n} (push : Pushed v a b) (room : a.sp.val < n)
    (pop : Popped b d) : Delivers b v ∧ d.sp = a.sp ∧ ∀ k, k < a.sp.val → d.slots[k]? = a.slots[k]? := by
  obtain ⟨pointer, entry, others⟩ := push.room room
  refine ⟨?_, Fin.ext ?_, fun k below => ?_⟩
  · rw [Delivers, pointer, Nat.add_sub_cancel, entry]
  · rw [pop.pointer, pointer, Nat.add_sub_cancel]
  · rw [pop.slots, others k (Nat.ne_of_lt below)]

/-- SSTAT after a push that found room and a pop is as before, when its EMPTY bit was right (10_state.md R48). -/
theorem sstatPop_sstatPush {e sp : Nat} {sstat : BitVec 8} (agree : sstat.getLsbD e = (sp == 0)) :
    sstatPop e (sp + 1) (sstatPush e true sstat) = sstat := by
  apply BitVec.eq_of_getLsbD_eq
  intro j hj
  by_cases own : e = j
  · subst own
    cases sp <;> simp_all [sstatPop, sstatPush]
  · rw [sstatPop_other e j _ _ own]
    simp [sstatPush, own]

/-- The return from a call restores the Machine State but for the PC stack, and that to its depth and entries. -/
theorem Cpu.pcReturn_callTo {c : Cpu} (addr : Addr) (room : c.pcStk.sp.val < 16) (agree : c.emptyBitsAgree = true) :
    let d := (c.callTo addr).pcReturn
    d = { c with pcStk := d.pcStk } ∧ d.pcStk.sp = c.pcStk.sp ∧
      ∀ k, k < c.pcStk.sp.val → d.pcStk.slots[k]? = c.pcStk.slots[k]? := by
  intro d
  obtain ⟨delivered, depth, entries⟩ := (c.pcPushed_pcPush c.pc).stack.popped room (HwStack.popped_pop _)
  have pc : (c.pcPush c.pc).pcTop = c.pc := HwStack.delivers_iff.mp delivered
  have sstat : (c.pcPush c.pc).pcPop.sstat = c.sstat := by
    obtain ⟨pcBit, _⟩ := c.emptyBitsAgree_iff.mp agree
    obtain ⟨_, pushed⟩ | ⟨full, _⟩ := c.pcPush_cases c.pc
    · rw [pushed]
      exact sstatPop_sstatPush pcBit
    · exact absurd full room.ne
  refine ⟨?_, depth, entries⟩
  change { c with pc := (c.pcPush c.pc).pcTop, pcStk := d.pcStk, sstat := (c.pcPush c.pc).pcPop.sstat } = _
  rw [pc, sstat]

/-- Settles O47: RTS is a pop with PC taking its value; after a call that value is what the call pushed. -/
theorem returnFromSubroutine : Obligations.ReturnFromSubroutine := by
  unfold Obligations.ReturnFromSubroutine
  refine ⟨fun cond s => completesIf_compute rfl fun c => ⟨c.pcStk.delivers_top, c.pcPopped_pcPop⟩, ?_⟩
  intro addr s room agree
  exact ⟨onCpu (Cpu.callTo addr) s, _, rfl, rfl, Cpu.pcReturn_callTo addr room agree⟩

/-- Settles O48: the status stack's pop after PC's leaves the PC stack and its bits of SSTAT alone. -/
theorem returnFromInterruptInstruction : Obligations.ReturnFromInterruptInstruction := by
  unfold Obligations.ReturnFromInterruptInstruction
  intro cond s
  refine ⟨_, rfl, ?_⟩
  cases holds : (evalCond cond s.cpu).1 with
  | false =>
    rw [whenCond_false _ holds]
    exact ⟨fun _ => rfl, fun _ => rfl, rfl, rfl, rfl, fun _ => ⟨rfl, rfl⟩, nofun⟩
  | true =>
    rw [whenCond_true _ holds]
    refine ⟨fun _ => rfl, fun _ => rfl, rfl, rfl, rfl, nofun, fun _ => ?_⟩
    let c := (evalCond cond s.cpu).2
    have status := statusControlled_statPop c.pcReturn
    have pcPop := c.pcPopped_pcPop
    obtain ⟨popped, delivered, flags⟩ := status.pops rfl
    obtain ⟨counterKept, statusKept, loopKept⟩ := pcPop.others
    exact ⟨rfl, c.pcStk.delivers_top, delivered, rfl, pcPop.stack, popped, pcPop.flags.kept_after status.pcFlags,
      flags.of_kept_before statusKept, counterKept.trans status.counterFlags, loopKept.trans status.loopFlags⟩

end Sys2Proof.Machine
end

/-! # Exceptions

No instruction faults. An evaluation of interrupts takes the highest takeable line or changes nothing, a step makes one
only when its instruction asked for it, and the entry of an interrupt is two pushes, which the return from it pops
again. Then the calls of the host.
-/
section
namespace Sys2Proof.Machine

/-! ### Every instruction and every step completes (60_exceptions.md R310) -/

/-- Settles O1: the chain of actions that an instruction or a step makes ends in a next state. -/
theorem everyInstructionAndStepCompletes : Obligations.EveryInstructionAndStepCompletes := by
  unfold Obligations.EveryInstructionAndStepCompletes
  refine ⟨fun i s => ?_, fun s => ?_⟩
  · obtain ⟨t, run, _⟩ := exec_performs i s
    exact ⟨t, run⟩
  · obtain ⟨u, run, _⟩ := step_performs s
    exact ⟨retire u, run⟩

/-! ### The evaluation of interrupts (60_exceptions.md R314 to R316) -/

theorem evaluateInterrupts_of_highest {s : State} {n : Fin Config.numIrq} (takes : s.cpu.takeable n = true)
    (highest : ∀ m, n < m → s.cpu.takeable m = false) : evaluateInterrupts s = takeInterrupt n s := by
  obtain ⟨m, takesM, highestM, taken⟩ | ⟨none, _⟩ := evaluateInterrupts_cases s
  · have notBelow : ¬ m < n := fun below => by simp [highestM n below] at takes
    have notAbove : ¬ n < m := fun above => by simp [highest m above] at takesM
    rwa [le_antisymm (not_lt.mp notBelow) (not_lt.mp notAbove)]
  · simp [none n] at takes

theorem evaluateInterrupts_of_none {s : State} (none : ∀ n, s.cpu.takeable n = false) : evaluateInterrupts s = s := by
  obtain ⟨n, takes, _⟩ | ⟨_, kept⟩ := evaluateInterrupts_cases s
  · simp [none n] at takes
  · exact kept

/-- Settles O51: two lines with none takeable above them are the same line. -/
theorem highestTakeableLineWins : Obligations.HighestTakeableLineWins := by
  unfold Obligations.HighestTakeableLineWins
  intro s takeable
  have same : takeable = s.cpu.takeable := funext fun n => Bool.and_comm _ _
  rw [same]
  exact ⟨fun n takes highest => evaluateInterrupts_of_highest takes highest, evaluateInterrupts_of_none⟩

/-- A takeable line is enabled (60_exceptions.md R314). -/
theorem Cpu.enabled_of_takeable {c : Cpu} {n : Fin Config.numIrq} (takes : c.takeable n = true) :
    c.imask.getLsbD n = true := by
  obtain ⟨_, enabled⟩ := Bool.and_eq_true_iff.mp takes
  exact enabled

/-- An action asks for an evaluation only in an instruction that can be an evaluation point (60_exceptions.md R316). -/
theorem Action.canEvaluate_of_asked {i : Instr} {s t : State} (act : Action i s t)
    (before : s.evalReq = true → canEvaluate i = true) : t.evalReq = true → canEvaluate i = true := by
  cases act with
  | statPop _ asks => exact fun _ => asks
  | regWrite slot v _ asks =>
    rw [State.regWrite_evalReq, Bool.or_eq_true]
    exact Or.rec before asks
  | compute | jump | setCntr | setMode | setPx | moveIndex | pcPush | pcPop | cntrPop | statPush | loopPush | loopPop
  | dmRead | pmRead | dmWrite | pmWrite => exact before

/-- The end of a step adds one entry of an enabled line at most, and that when the instruction asked for an evaluation
(60_exceptions.md R315). -/
theorem retire_takes_one_at_most (u : State) :
    let v := { u with evalReq := false }
    retire u = v ∨ u.evalReq = true ∧ ∃ n, v.cpu.imask.getLsbD n.val = true ∧ retire u = takeInterrupt n v := by
  intro v
  obtain ⟨unasked, kept⟩ | ⟨asked, evaluated⟩ := retire_cases u
  · exact .inl (kept.trans (congrArg (fun asks => { u with evalReq := asks }) unasked))
  · rw [evaluated]
    obtain ⟨n, takes, _, taken⟩ | ⟨_, unchanged⟩ := evaluateInterrupts_cases v
    · exact .inr ⟨asked, n, Cpu.enabled_of_takeable takes, taken⟩
    · exact .inl unchanged

/-- Settles O54: the step begins without a request, and only an action of an evaluation point makes one. -/
theorem interruptsOnlyAtEvaluationPoints : Obligations.InterruptsOnlyAtEvaluationPoints := by
  unfold Obligations.InterruptsOnlyAtEvaluationPoints
  intro s t stepped
  obtain ⟨u, run, chain⟩ := exec_performs (decode (s.pm.pmWord s.cpu.pc)) (enterInstr s)
  have retired : step s = .next (retire u) := by simp only [step, fetchWord_word, run]
  obtain rfl : retire u = t := Host.Outcome.next.inj (retired.symm.trans stepped)
  have point : u.evalReq = true → canEvaluate (decode (s.pm.pmWord s.cpu.pc)) = true :=
    chain.keeps (P := fun w => w.evalReq = true → _) Action.canEvaluate_of_asked nofun
  refine ⟨u, run, (retire_takes_one_at_most u).imp_right ?_⟩
  exact And.imp_left point

/-! ### The entry of an interrupt (60_exceptions.md R317, R321) -/

/-- The entry leaves enabled, with NEST, the lines above the one taken, and no line without. -/
theorem entryMask_getLsbD (n k : Fin 4) (c : Cpu) :
    (entryMask n c).getLsbD k = (c.icntl.getLsbD 4 && decide (n < k) && c.imask.getLsbD k) := by
  unfold entryMask
  cases nest : c.icntl.getLsbD 4 with
  | false => simp
  | true =>
    have taken : (BitVec.ofNat 4 (2 ^ (n.val + 1) - 1)).getLsbD k = decide (k ≤ n) := by
      rw [BitVec.getLsbD_ofNat, Nat.testBit_two_pow_sub_one, decide_eq_true k.isLt, Bool.true_and]
      exact decide_eq_decide.mpr Nat.lt_succ_iff
    have above : (!decide (k ≤ n)) = decide (n < k) := by simp only [← decide_not, not_le]
    rw [if_pos rfl, BitVec.getLsbD_and, BitVec.getLsbD_not, taken, above, decide_eq_true k.isLt, Bool.true_and,
      Bool.and_comm]

/-- The Machine State with the latch of line `n` cleared, on which the entry makes its pushes. -/
def Cpu.clearLatch (n : Fin Config.numIrq) (c : Cpu) : Cpu := { c with irqLatch := setBit c.irqLatch n false }

theorem Cpu.clearLatch_irqLatch (n k : Fin 4) (c : Cpu) :
    (c.clearLatch n).irqLatch.getLsbD k = (decide (k ≠ n) && c.irqLatch.getLsbD k) := by
  by_cases own : k = n
  · simp [Cpu.clearLatch, own]
  · simp [Cpu.clearLatch, own, Fin.val_ne_of_ne (Ne.symm own)]

/-- The two pushes of the entry (60_exceptions.md R317). -/
def Cpu.saveContext (c : Cpu) : Cpu := (c.pcPush c.pc).statPush

theorem Cpu.pushed_saveContext_pcStk (c : Cpu) : Pushed c.pc c.pcStk c.saveContext.pcStk := c.pcStk.pushed_push c.pc

theorem Cpu.pushed_saveContext_statStk (c : Cpu) :
    Pushed ⟨c.mstat, c.imask, c.astat⟩ c.statStk c.saveContext.statStk := c.statStk.pushed_push _

theorem takeInterrupt_cpu (n : Fin Config.numIrq) (s : State) :
    let c := (s.cpu.clearLatch n).saveContext
    (takeInterrupt n s).cpu = { c with pc := BitVec.ofNat 14 n, imask := entryMask n c } := rfl

/-- Settles O52: the two pushes act on different stacks and different bits of SSTAT, and on neither register that the
entry sets. -/
theorem interruptEntry : Obligations.InterruptEntry := by
  unfold Obligations.InterruptEntry
  intro n s c t d
  let cleared := s.cpu.clearLatch n
  have pcPush := cleared.pcPushed_pcPush cleared.pc
  have status := statusControlled_statPush (cleared.pcPush cleared.pc)
  obtain ⟨counterKept, statusKept, loopKept⟩ := pcPush.others
  obtain ⟨pushed, flags⟩ := status.pushes rfl
  refine ⟨fun _ => rfl, fun _ => rfl, rfl, rfl, rfl, rfl, rfl, ?vector, fun k => c.clearLatch_irqLatch n k,
    pcPush.stack, pushed, fun k => entryMask_getLsbD n k _, pcPush.flags.kept_after status.pcFlags,
    flags.of_kept_before statusKept, counterKept.trans status.counterFlags, loopKept.trans status.loopFlags,
    fun b => ⟨rfl, rfl, rfl, rfl, rfl, rfl⟩⟩
  case vector => exact Nat.mod_eq_of_lt (Nat.lt_trans n.isLt (by decide))

/-! ### The return from an interrupt (60_exceptions.md R318) -/

/-- SSTAT after a push on one stack that found room and a pop of another does not depend on their order. -/
theorem sstatPop_sstatPush_comm {e f : Nat} (apart : e ≠ f) (sp : Nat) (sstat : BitVec 8) :
    sstatPop e sp (sstatPush f true sstat) = sstatPush f true (sstatPop e sp sstat) := by
  unfold sstatPop sstatPush
  split
  · exact setBit_comm sstat apart.symm false true
  · rfl

theorem HwStack.push_isSome {α : Type} {n : Nat} {st : HwStack α n} (room : st.sp.val < n) (v : α) :
    (st.push v).isSome = true := by
  obtain ⟨_, pushed⟩ | ⟨full, _⟩ := st.push_cases v
  · rw [pushed]
    rfl
  · exact absurd full room.ne

/-- SSTAT after the two pushes of an entry, both with room, and the two pops of the return. -/
theorem Cpu.saveContext_sstat_popped {c : Cpu} (pcRoom : c.pcStk.sp.val < 16) (statRoom : c.statStk.sp.val < 4)
    (agree : c.emptyBitsAgree = true) :
    sstatPop 4 c.saveContext.statStk.sp (sstatPop 0 c.saveContext.pcStk.sp c.saveContext.sstat) = c.sstat := by
  obtain ⟨pcBit, _, statBit, _⟩ := c.emptyBitsAgree_iff.mp agree
  obtain ⟨pcDepth, _⟩ := c.pushed_saveContext_pcStk.room pcRoom
  obtain ⟨statDepth, _⟩ := c.pushed_saveContext_statStk.room statRoom
  have pushes : c.saveContext.sstat = sstatPush 4 true (sstatPush 0 true c.sstat) :=
    congrArg₂ (fun pc stat => sstatPush 4 stat (sstatPush 0 pc c.sstat)) (HwStack.push_isSome pcRoom _)
      (HwStack.push_isSome statRoom _)
  rw [pushes, pcDepth, statDepth, sstatPop_sstatPush_comm (by decide), sstatPop_sstatPush pcBit,
    sstatPop_sstatPush statBit]

/-- The return from an interrupt, field by field (47_program_flow.md R290). -/
theorem returnFromInterrupt_cpu (s : State) : (returnFromInterrupt s).cpu = { s.cpu with
    pc := s.cpu.pcStk.top, pcStk := s.cpu.pcStk.pop, statStk := s.cpu.statStk.pop
    sstat := sstatPop 4 s.cpu.statStk.sp (sstatPop 0 s.cpu.pcStk.sp s.cpu.sstat)
    mstat := s.cpu.statStk.top.mstat, imask := s.cpu.statStk.top.imask, astat := s.cpu.statStk.top.astat } := rfl

/-- After an entry that found room on both stacks the return leaves the latch cleared and the entries popped, and the
rest as the entry found it. -/
theorem returnFromInterrupt_takeInterrupt_cpu {n : Fin Config.numIrq} {s : State} (pcRoom : s.cpu.pcStk.sp.val < 16)
    (statRoom : s.cpu.statStk.sp.val < 4) (agree : s.cpu.emptyBitsAgree = true) :
    (returnFromInterrupt (takeInterrupt n s)).cpu = { s.cpu.clearLatch n with
      pcStk := (s.cpu.clearLatch n).saveContext.pcStk.pop
      statStk := (s.cpu.clearLatch n).saveContext.statStk.pop } := by
  let c := s.cpu.clearLatch n
  obtain ⟨pcSaved, _⟩ := c.pushed_saveContext_pcStk.popped pcRoom (HwStack.popped_pop _)
  obtain ⟨saved, _⟩ := c.pushed_saveContext_statStk.popped statRoom (HwStack.popped_pop _)
  have pc : c.saveContext.pcStk.top = c.pc := HwStack.delivers_iff.mp pcSaved
  have triple : c.saveContext.statStk.top = ⟨c.mstat, c.imask, c.astat⟩ := HwStack.delivers_iff.mp saved
  have sstat := Cpu.saveContext_sstat_popped (c := c) pcRoom statRoom agree
  simp only [returnFromInterrupt_cpu, takeInterrupt_cpu, pc, triple, sstat, c]
  rfl

/-- Settles O53: each of the two pops delivers what the entry pushed on its stack, and takes back its bit of SSTAT. -/
theorem rtiUndoesInterruptEntry : Obligations.RtiUndoesInterruptEntry := by
  unfold Obligations.RtiUndoesInterruptEntry
  intro n s pcRoom statRoom agree
  let c := s.cpu.clearLatch n
  have run : exec (.rti .always) (takeInterrupt n s) = .next (returnFromInterrupt (takeInterrupt n s)) := rfl
  obtain ⟨_, pcDepth, pcEntries⟩ := c.pushed_saveContext_pcStk.popped pcRoom (HwStack.popped_pop _)
  obtain ⟨_, depth, entries⟩ := c.pushed_saveContext_statStk.popped statRoom (HwStack.popped_pop _)
  refine ⟨_, run, rfl, ?_⟩
  rw [returnFromInterrupt_takeInterrupt_cpu pcRoom statRoom agree]
  exact ⟨rfl, fun k => s.cpu.clearLatch_irqLatch n k, pcDepth, depth, pcEntries, entries⟩

/-! ### The calls of the host (60_exceptions.md R312, R313) -/

section DriveLine
variable (n k : Fin 4) (asserted : Bool) (c : Cpu)

theorem Cpu.driveLine_irqLine : (c.driveLine n asserted).irqLine.getLsbD k =
    if k.val = n.val then asserted else c.irqLine.getLsbD k := by
  simp only [Cpu.driveLine, setBit_getLsbD, k.isLt, and_true, eq_comm]

/-- A rising edge alone sets the latch of the line. -/
theorem Cpu.driveLine_irqLatch : (c.driveLine n asserted).irqLatch.getLsbD k =
    (c.irqLatch.getLsbD k || (decide (k.val = n.val) && asserted && !c.irqLine.getLsbD k)) := by
  have latch : (c.driveLine n asserted).irqLatch =
      if asserted && !c.irqLine.getLsbD n then setBit c.irqLatch n true else c.irqLatch := rfl
  rw [latch]
  by_cases own : k.val = n.val
  · rw [own]
    cases rising : asserted && !c.irqLine.getLsbD n <;> simp_all
  · cases rising : asserted && !c.irqLine.getLsbD n <;> simp [own, Ne.symm own]

end DriveLine

theorem assertIrqLine_of_lt {n : Nat} (line : n < 4) (asserted : Bool) (s : State) : assertIrqLine n asserted s =
    let t := onCpu (Cpu.driveLine ⟨n, line⟩ asserted) (beginHostCall s)
    if asserted then evaluateInterrupts t else t := dif_pos line

theorem assertIrqLine_of_ge {n : Nat} (noLine : 4 ≤ n) (asserted : Bool) (s : State) :
    assertIrqLine n asserted s = beginHostCall s := dif_neg (Nat.not_lt_of_le noLine)

/-- Settles O55: the Machine State is the one with the line driven, bit by bit. -/
theorem lineAssertion : Obligations.LineAssertion := by
  unfold Obligations.LineAssertion
  refine fun n asserted s => ⟨fun noLine => assertIrqLine_of_ge noLine asserted s, fun line => ?_⟩
  let n' : Fin 4 := ⟨n, line⟩
  exact ⟨s.cpu.driveLine n' asserted, rfl, fun k => s.cpu.driveLine_irqLine n' k asserted,
    fun k => s.cpu.driveLine_irqLatch n' k asserted, assertIrqLine_of_lt line asserted s⟩

/-! ### The host's calls and the invariant -/

theorem State.Sound.beginHostCall {s : State} (h : s.Sound) : (beginHostCall s).Sound :=
  ⟨h.dmForm, h.pmForm, h.emptyBits⟩

/-- A host call begins without a request for an evaluation, so a sound state is all it has to leave. -/
theorem State.Sound.inv {s : State} (h : s.Sound) (evaluated : s.evalReq = false) : s.Inv :=
  s.inv_iff.mpr ⟨h, evaluated⟩

theorem State.Sound.inv_assertIrqLine {s : State} (h : s.Sound) (n : Nat) (asserted : Bool) :
    (assertIrqLine n asserted s).Inv := by
  by_cases line : n < 4
  · rw [assertIrqLine_of_lt line]
    have driven : (onCpu (Cpu.driveLine ⟨n, line⟩ asserted) (Machine.beginHostCall s)).Sound :=
      ⟨h.dmForm, h.pmForm, Cpu.emptyBitsAgree_of_eq h.emptyBits rfl rfl rfl rfl rfl⟩
    cases asserted with
    | true => exact driven.evaluateInterrupts.inv (State.evaluateInterrupts_evalReq _)
    | false => exact driven.inv rfl
  · rw [assertIrqLine_of_ge (Nat.le_of_not_lt line)]
    exact h.beginHostCall.inv rfl

/-- The host's register write is the action of an instruction that moves to the slot (70_reset_and_hazards.md R350). -/
theorem State.Sound.inv_writeRegister {s : State} (h : s.Sound) (group index : Nat) (v : Word) :
    (writeRegister group index v s).Inv := by
  unfold writeRegister
  cases hostSlot group index with
  | none => exact h.beginHostCall.inv rfl
  | some slot =>
    have write : Action (.moveReg slot slot) _ (regWrite slot v (Machine.beginHostCall s)) := .regWrite slot v _ id
    exact (h.beginHostCall.action write).inv_retire

/-- Reset writes 0x55 to SSTAT and empties every stack (10_state.md R58). -/
theorem Cpu.emptyBitsAgree_hostReset (c : Cpu) : c.hostReset.emptyBitsAgree = true := by
  simp [Cpu.emptyBitsAgree_iff, Cpu.hostReset, Config.resetSstat, HwStack.isEmpty]

theorem State.Sound.inv_setState {s t : State} (h : s.Sound) {c : Cpu} (accepted : setState c s = .next t) : t.Inv := by
  unfold setState at accepted
  split at accepted
  next agree =>
    obtain rfl := Host.Outcome.next.inj accepted
    exact ⟨h.dmForm, h.pmForm, agree, rfl⟩
  next => cases accepted

/-- Settles O9: a call drives a line, writes a register, resets, or replaces a part of the state, and each leaves a
sound state with no request over. -/
theorem hostCallsKeepInv : Obligations.HostCallsKeepInv := by
  unfold Obligations.HostCallsKeepInv
  intro s inv
  obtain ⟨dm, pm, empty, _⟩ := inv
  have sound : s.Sound := ⟨dm, pm, empty⟩
  exact ⟨sound.inv_assertIrqLine, sound.inv_writeRegister, ⟨dm, pm, s.cpu.emptyBitsAgree_hostReset, rfl⟩,
    fun a v => ⟨Memory.wf_setDmWord a v dm, pm, empty, rfl⟩, fun a v => ⟨dm, Memory.wf_setPmWord a v pm, empty, rfl⟩,
    fun _ => ⟨dm, pm, empty, rfl⟩, fun _ _ => sound.inv_setState⟩

end Sys2Proof.Machine
end

/-! # What no instruction does, and the host's runs and accesses

The interrupt lines and latches, the acknowledges and, but for a store, the memories are kept by every action of an
instruction. The bank that is not live is not: an action that came after a switch of banks could write it. What keeps it
is the order: no instruction writes a bank after it has switched banks.
-/
section
namespace Sys2Proof.Machine

/-! ### What is the host's, and the memories (70_reset_and_hazards.md R347) -/

/-- The interrupt lines and latches, the acknowledges given and the registration of the callback are those of `s`
(10_state.md R34; 60_exceptions.md R313, R321). -/
structure InterruptsKept (s t : State) : Prop where
  irqLine : t.cpu.irqLine = s.cpu.irqLine
  irqLatch : t.cpu.irqLatch = s.cpu.irqLatch
  acks : t.acks = s.acks
  irqCallback : t.irqCallback = s.irqCallback

/-- No slot of the register map is an interrupt line or latch (10_state.md R35). -/
theorem writeReg_interrupts (r : Reg) (v : Word) (c : Cpu) :
    (writeReg r v c).irqLine = c.irqLine ∧ (writeReg r v c).irqLatch = c.irqLatch := by
  rw [writeReg_rest r v c]
  exact ⟨rfl, rfl⟩

/-- No action of an instruction reaches what is the host's and the interrupt entry's. -/
theorem InterruptsKept.action {i : Instr} {s t u : State} (act : Action i t u) (kept : InterruptsKept s t) :
    InterruptsKept s u := by
  obtain ⟨line, latch, acks, callback⟩ := kept
  cases act with
  | compute f _ only =>
    obtain ⟨-, -, -, -, -, -, -, -, -, -, -, lineKept, latchKept, -⟩ := (onlyCompute_iff _ _).mp only
    exact ⟨lineKept.trans line, latchKept.trans latch, acks, callback⟩
  | regWrite slot v =>
    cases valid : regAt slot with
    | none => rw [regWrite_none valid]; exact ⟨line, latch, acks, callback⟩
    | some r =>
      obtain ⟨lineKept, latchKept⟩ := writeReg_interrupts r v t.cpu
      rw [regWrite_some valid]
      exact ⟨lineKept.trans line, latchKept.trans latch, acks, callback⟩
  | jump | setCntr | setMode | setPx | moveIndex | pcPush | pcPop | cntrPop | statPush | statPop | loopPush | loopPop
  | dmRead | pmRead | dmWrite | pmWrite => exact ⟨line, latch, acks, callback⟩

/-- Data memory is written by the action of a store alone. -/
theorem Action.dm_eq {i : Instr} {s t : State} (act : Action i s t) (noStore : storesDm i = false) : t.dm = s.dm := by
  cases act with
  | dmWrite _ _ _ stores => simp [noStore] at stores
  | regWrite => exact State.regWrite_dm ..
  | compute | jump | setCntr | setMode | setPx | moveIndex | pcPush | pcPop | cntrPop | statPush | statPop | loopPush
  | loopPop | dmRead | pmRead | pmWrite => rfl

/-- Program memory is written by the action of a store alone. -/
theorem Action.pm_eq {i : Instr} {s t : State} (act : Action i s t) (noStore : storesPm i = false) : t.pm = s.pm := by
  cases act with
  | pmWrite _ _ _ stores => simp [noStore] at stores
  | regWrite => exact State.regWrite_pm ..
  | compute | jump | setCntr | setMode | setPx | moveIndex | pcPush | pcPop | cntrPop | statPush | statPop | loopPush
  | loopPop | dmRead | pmRead | dmWrite => rfl

/-- An instruction that goes to a next state goes there by a chain of its actions. -/
theorem performs_of_exec {i : Instr} {s t : State} (run : exec i s = .next t) : Performs i s t := by
  obtain ⟨u, reached, chain⟩ := exec_performs i s
  obtain rfl : u = t := Host.Outcome.next.inj (reached.symm.trans run)
  exact chain

/-- Settles O57: no action but a store writes a memory, and a store is an action of the storing instructions alone. -/
theorem onlyStoresChangeMemory : Obligations.OnlyStoresChangeMemory := by
  unfold Obligations.OnlyStoresChangeMemory DmKept PmKept
  intro i s t run
  have chain := performs_of_exec run
  refine ⟨fun noStore k => ?dm, fun noStore k => ?pm⟩
  case dm =>
    have kept : t.dm = s.dm := chain.keeps (P := fun u => u.dm = s.dm) (fun act => (act.dm_eq noStore).trans) rfl
    rw [kept]
  case pm =>
    have kept : t.pm = s.pm := chain.keeps (P := fun u => u.pm = s.pm) (fun act => (act.pm_eq noStore).trans) rfl
    rw [kept]

/-! ### The bank that is not live (10_state.md R22) -/

/-- The bank that is not live in `s` holds in `t` what it held, whichever bank is live in `t`. -/
def OtherBankKept (s t : State) : Prop := (t.cpu.setMstat s.cpu.mstat).shadow = s.cpu.shadow

/-- `t` has the mode bits of `s`, and the bank that is not live is as it was. -/
structure SameMode (s t : State) : Prop where
  mstat : t.cpu.mstat = s.cpu.mstat
  shadow : t.cpu.shadow = s.cpu.shadow

theorem SameMode.trans {s t u : State} (first : SameMode s t) (second : SameMode t u) : SameMode s u :=
  ⟨second.mstat.trans first.mstat, second.shadow.trans first.shadow⟩

/-- With the mode as it was, the bank that is not live is the same one in both states. -/
theorem SameMode.otherBankKept {s t : State} (same : SameMode s t) : OtherBankKept s t := by
  unfold OtherBankKept
  rw [← same.mstat]
  exact same.shadow

/-- Where the mode is as it was, what follows may change it. -/
theorem SameMode.andThen {s t u : State} (same : SameMode s t) (last : OtherBankKept t u) : OtherBankKept s u := by
  unfold OtherBankKept at *
  rw [← same.mstat]
  exact last.trans same.shadow

theorem otherBankKept_iff (s t : State) : OtherBankKept s t ↔
    if s.cpu.mstat.getLsbD 0 then t.cpu.bank0 = s.cpu.bank0 else t.cpu.bank1 = s.cpu.bank1 := by
  unfold OtherBankKept Cpu.shadow Cpu.setMstat
  split <;> rfl

theorem otherBankKept_of_banks {s t : State} (bank0 : t.cpu.bank0 = s.cpu.bank0) (bank1 : t.cpu.bank1 = s.cpu.bank1) :
    OtherBankKept s t := by
  rw [otherBankKept_iff]
  split
  · exact bank0
  · exact bank1

theorem OnlyCompute.mstat {c d : Cpu} (only : OnlyCompute c d) : d.mstat = c.mstat := by rw [only.rest]

/-- Only a write of MSTAT changes the mode (10_state.md R29, R38). -/
theorem writeReg_mstat {r : Reg} (other : r ≠ .mstat) (v : Word) (c : Cpu) : (writeReg r v c).mstat = c.mstat := by
  cases r with
  | mstat => exact absurd rfl other
  | ax0 | ax1 | mx0 | mx1 | ay0 | ay1 | my0 | my1 | si | se | ar | mr0 | mr1 | mr2 | sr0 | sr1 | sb =>
    exact Cpu.withLive_mstat _ _
  | i | m | l | astat | sstat | imask | icntl | cntr | px => rfl

section Parts
variable (s : State)

theorem sameMode_compute {f : Cpu → Cpu} (only : ∀ c, OnlyCompute c (f c)) : SameMode s (onCpu f s) :=
  ⟨(only s.cpu).mstat, (only s.cpu).shadow⟩

theorem sameMode_evalCond (cond : Cond) : SameMode s { s with cpu := (evalCond cond s.cpu).2 } :=
  ⟨Cpu.evalCond_mstat s.cpu cond, Cpu.evalCond_shadow s.cpu cond⟩

theorem sameMode_dmReadDag (k m : Fin 8) : SameMode s (dmReadDag k m s).2 := ⟨rfl, rfl⟩

theorem sameMode_pmReadDag (k m : Fin 8) : SameMode s (pmReadDag k m s).2 := ⟨rfl, rfl⟩

theorem sameMode_dmWriteDag (k m : Fin 8) (v : Word) : SameMode s (dmWriteDag k m v s) := ⟨rfl, rfl⟩

theorem sameMode_pmWriteDag (k m : Fin 8) (v : Word) : SameMode s (pmWriteDag k m v s) := ⟨rfl, rfl⟩

theorem sameMode_regWrite {slot : Slot} (other : regAt slot ≠ some .mstat) (v : Word) :
    SameMode s (regWrite slot v s) := by
  cases valid : regAt slot with
  | none => rw [regWrite_none valid]; exact ⟨rfl, rfl⟩
  | some r =>
    have notMstat : r ≠ .mstat := fun same => other (valid.trans (congrArg some same))
    rw [regWrite_some valid]
    exact ⟨writeReg_mstat notMstat v s.cpu, (writeReg_banks v s.cpu notMstat).1⟩

theorem sameMode_writeDreg (dreg : BitVec 4) (v : Word) : SameMode s (regWrite (dregSlot dreg) v s) :=
  sameMode_regWrite s (by revert dreg; decide) v

/-- A write of MSTAT switches banks without moving data; every other register is of the live bank or of none
(10_state.md R22, R30). -/
theorem otherBankKept_regWrite (slot : Slot) (v : Word) : OtherBankKept s (regWrite slot v s) := by
  by_cases mstat : regAt slot = some .mstat
  · rw [regWrite_some mstat]
    exact otherBankKept_of_banks rfl rfl
  · exact (sameMode_regWrite s mstat v).otherBankKept

/-- A condition leaves the mode and both banks (47_program_flow.md R281, R282). -/
theorem otherBankKept_whenCond (cond : Cond) {act : State → State} (kept : ∀ u, OtherBankKept u (act u)) :
    OtherBankKept s (whenCond cond act s) := by
  cases holds : (evalCond cond s.cpu).1 with
  | true => rw [whenCond_true act holds]; exact (sameMode_evalCond s cond).andThen (kept _)
  | false => rw [whenCond_false act holds]; exact (sameMode_evalCond s cond).otherBankKept

/-- The pops and the status stack action reach no bank, though a pop of the status stack may switch banks
(42_stack_control.md R160). -/
theorem otherBankKept_stackControl {t : State} {pp lp cp : Bool} {spp : BitVec 2}
    (run : exec (.stackControl pp lp cp spp) s = .next t) : OtherBankKept s t := by
  obtain ⟨u, reached, -, -, -, -, -, -, rest, -⟩ := stackControl pp lp cp spp s
  obtain rfl : u = t := Host.Outcome.next.inj (reached.symm.trans run)
  exact otherBankKept_of_banks (by rw [rest]) (by rw [rest])

section Multifunction
variable {part : Cpu → Cpu} (only : ∀ c, OnlyCompute c (part c))
include only

theorem otherBankKept_computeWhen (cond : Cond) : OtherBankKept s (whenCond cond (onCpu part) s) :=
  otherBankKept_whenCond s cond fun u => (sameMode_compute u only).otherBankKept

theorem otherBankKept_withMove (ddreg sdreg : BitVec 4) : OtherBankKept s (withMove part ddreg sdreg s) :=
  ((sameMode_compute s only).trans (sameMode_writeDreg _ ddreg _)).otherBankKept

theorem otherBankKept_withDmRead (k m : Fin 8) (dreg : BitVec 4) : OtherBankKept s (withDmRead part k m dreg s) :=
  (((sameMode_compute s only).trans (sameMode_dmReadDag _ k m)).trans (sameMode_writeDreg _ dreg _)).otherBankKept

theorem otherBankKept_withPmRead (k m : Fin 8) (dreg : BitVec 4) : OtherBankKept s (withPmRead part k m dreg s) :=
  (((sameMode_compute s only).trans (sameMode_pmReadDag _ k m)).trans (sameMode_writeDreg _ dreg _)).otherBankKept

theorem otherBankKept_withDmWrite (k m : Fin 8) (dreg : BitVec 4) : OtherBankKept s (withDmWrite part k m dreg s) :=
  ((sameMode_compute s only).trans (sameMode_dmWriteDag _ k m _)).otherBankKept

theorem otherBankKept_withPmWrite (k m : Fin 8) (dreg : BitVec 4) : OtherBankKept s (withPmWrite part k m dreg s) :=
  ((sameMode_compute s only).trans (sameMode_pmWriteDag _ k m _)).otherBankKept

theorem otherBankKept_withDualRead (dd pd : BitVec 2) (dmi dmm pmi pmm : Fin 8) :
    OtherBankKept s (withDualRead part dd pd dmi dmm pmi pmm s) :=
  (((((sameMode_compute s only).trans (sameMode_dmReadDag _ dmi dmm)).trans (sameMode_pmReadDag _ pmi pmm)).trans
    (sameMode_writeDreg _ _ _)).trans (sameMode_writeDreg _ _ _)).otherBankKept

end Multifunction

end Parts

/-- Every instruction keeps the bank that is not live: computations and register writes reach the live one, and an
instruction that may switch banks writes to neither bank (10_state.md R22). -/
theorem exec_otherBankKept (i : Instr) (s : State) : ∃ t, exec i s = .next t ∧ OtherBankKept s t := by
  have unchanged : SameMode s s := ⟨rfl, rfl⟩
  cases i with
  | nop | reserved01 | reserved02 | reserved03 | reserved08 | shiftImmReserved =>
    exact ⟨_, rfl, unchanged.otherBankKept⟩
  | stackControl pp lp cp spp => exact ⟨_, rfl, otherBankKept_stackControl s rfl⟩
  | modeControl => exact ⟨_, rfl, otherBankKept_of_banks rfl rfl⟩
  | modify | doUntil | storeDirect => exact ⟨_, rfl, otherBankKept_of_banks rfl rfl⟩
  | storeImm => exact ⟨_, rfl, (sameMode_dmWriteDag s _ _ _).otherBankKept⟩
  | jump _ cond | call _ cond | jumpInd _ cond | callInd _ cond | rts cond | rti cond =>
    exact ⟨_, rfl, otherBankKept_whenCond s cond fun u => otherBankKept_of_banks rfl rfl⟩
  | moveReg dst | loadImm14 dst | loadDirect dst => exact ⟨_, rfl, otherBankKept_regWrite _ dst _⟩
  | loadImm16 _ dreg => exact ⟨_, rfl, otherBankKept_regWrite s (dregSlot dreg) _⟩
  | satMr => exact ⟨_, rfl, (sameMode_compute s onlyCompute_saturateMr).otherBankKept⟩
  | divs yop xop => exact ⟨_, rfl, (sameMode_compute s fun c => onlyCompute_divideSign c yop xop).otherBankKept⟩
  | divq xop => exact ⟨_, rfl, (sameMode_compute s fun c => onlyCompute_divideStep c xop).otherBankKept⟩
  | lshiftHiImm | orLshiftHiImm | lshiftLoImm | orLshiftLoImm | ashiftHiImm | orAshiftHiImm | ashiftLoImm
  | orAshiftLoImm => exact ⟨_, rfl, (sameMode_compute s fun c => onlyCompute_shiftPart c _ _ _).otherBankKept⟩
  | lshiftHi | orLshiftHi | lshiftLo | orLshiftLo | ashiftHi | orAshiftHi | ashiftLo | orAshiftLo | normHi | orNormHi
  | normLo | orNormLo | expHi | expHix | expLo | expAdj =>
    exact ⟨_, rfl, otherBankKept_computeWhen s (fun c => onlyCompute_shiftBySe c _ _) _⟩
  | arPassY | afPassY | arIncY | afIncY | arAddC | afAddC | arAdd | afAdd | arNotY | afNotY | arNegY | afNegY | arSubC
  | afSubC | arSub | afSub | arDecY | afDecY | arRsub | afRsub | arRsubC | afRsubC | arNotX | afNotX | arAnd | afAnd
  | arOr | afOr | arXor | afXor | arAbsX | afAbsX =>
    exact ⟨_, rfl, otherBankKept_computeWhen s (fun c => onlyCompute_aluPart c _ _ _ _) _⟩
  | shiftMove => exact ⟨_, rfl, otherBankKept_withMove s (fun c => onlyCompute_shiftBySe c _ _) _ _⟩
  | shiftDmRead => exact ⟨_, rfl, otherBankKept_withDmRead s (fun c => onlyCompute_shiftBySe c _ _) _ _ _⟩
  | shiftDmWrite => exact ⟨_, rfl, otherBankKept_withDmWrite s (fun c => onlyCompute_shiftBySe c _ _) _ _ _⟩
  | shiftPmRead => exact ⟨_, rfl, otherBankKept_withPmRead s (fun c => onlyCompute_shiftBySe c _ _) _ _ _⟩
  | shiftPmWrite => exact ⟨_, rfl, otherBankKept_withPmWrite s (fun c => onlyCompute_shiftBySe c _ _) _ _ _⟩
  | computeMove => exact ⟨_, rfl, otherBankKept_withMove s (fun c => onlyCompute_computePart c _ _ _ _) _ _⟩
  | dmRead | dmReadAlu | dmReadMac8to15 | dmReadMac4to7 | dmReadMac2to3 | dmReadMac1 =>
    exact ⟨_, rfl, otherBankKept_withDmRead s (fun c => onlyCompute_computePart c _ _ _ _) _ _ _⟩
  | dmWrite | dmWriteAlu | dmWriteMac8to15 | dmWriteMac4to7 | dmWriteMac2to3 | dmWriteMac1 =>
    exact ⟨_, rfl, otherBankKept_withDmWrite s (fun c => onlyCompute_computePart c _ _ _ _) _ _ _⟩
  | pmRead | pmReadAlu | pmReadMac8to15 | pmReadMac4to7 | pmReadMac2to3 | pmReadMac1 =>
    exact ⟨_, rfl, otherBankKept_withPmRead s (fun c => onlyCompute_computePart c _ _ _ _) _ _ _⟩
  | pmWrite | pmWriteAlu | pmWriteMac8to15 | pmWriteMac4to7 | pmWriteMac2to3 | pmWriteMac1 =>
    exact ⟨_, rfl, otherBankKept_withPmWrite s (fun c => onlyCompute_computePart c _ _ _ _) _ _ _⟩
  | dualRead => exact ⟨_, rfl, otherBankKept_withDualRead s (fun c => onlyCompute_computePart c _ _ _ _) _ _ _ _ _ _⟩
  | condNoCompute | mrMulRnd | mfMulRnd | mrAddRnd | mfAddRnd | mrSubRnd | mfSubRnd | mrMulSS | mfMulSS | mrMulSU
  | mfMulSU | mrMulUS | mfMulUS | mrMulUU | mfMulUU | mrAddSS | mfAddSS | mrAddSU | mfAddSU | mrAddUS | mfAddUS
  | mrAddUU | mfAddUU | mrSubSS | mfSubSS | mrSubSU | mfSubSU | mrSubUS | mfSubUS | mrSubUU | mfSubUU =>
    exact ⟨_, rfl, otherBankKept_computeWhen s (fun c => onlyCompute_macPart c _ _ _ _) _⟩

/-- Settles O56: each action keeps the interrupt state, and the order of the actions keeps the bank that is not live. -/
theorem otherBankAndInterruptLinesAreNeverChanged : Obligations.OtherBankAndInterruptLinesAreNeverChanged := by
  unfold Obligations.OtherBankAndInterruptLinesAreNeverChanged
  intro i s t run
  obtain ⟨line, latch, acks, callback⟩ :=
    (performs_of_exec run).keeps (P := InterruptsKept s) InterruptsKept.action ⟨rfl, rfl, rfl, rfl⟩
  obtain ⟨u, reached, kept⟩ := exec_otherBankKept i s
  obtain rfl : u = t := Host.Outcome.next.inj (reached.symm.trans run)
  exact ⟨(otherBankKept_iff s u).mp kept, line, latch, acks, callback⟩

end Sys2Proof.Machine
end

/-! # The host's runs and accesses

A run of `n` cycles is `n` steps, each of which completes. A register write of the host is that of an instruction,
retired at once. A reset and a snapshot act on the Machine State; what else a call clears, a step clears before it reads
it.
-/
section
namespace Sys2Proof.Machine

/-! ### Runs (70_reset_and_hazards.md R343, R344) -/

theorem step_completes (s : State) : ∃ t, step s = .next t := by
  obtain ⟨u, run, -⟩ := step_performs s
  exact ⟨retire u, run⟩

theorem stepN_succ {s t : State} (stepped : step s = .next t) (n : Nat) : stepN (n + 1) s = stepN n t := by
  simp only [stepN, stepped]

theorem stepN_one (s : State) : stepN 1 s = step s := by
  obtain ⟨t, stepped⟩ := step_completes s
  rw [stepN_succ stepped, stepped]
  rfl

theorem stepN_completes (n : Nat) (s : State) : ∃ t, stepN n s = .next t := by
  induction n generalizing s with
  | zero => exact ⟨s, rfl⟩
  | succ n ih =>
    obtain ⟨t, stepped⟩ := step_completes s
    rw [stepN_succ stepped]
    exact ih t

theorem stepN_add {a : Nat} {s t : State} (first : stepN a s = .next t) (b : Nat) : stepN (a + b) s = stepN b t := by
  induction a generalizing s with
  | zero =>
    obtain rfl : s = t := Host.Outcome.next.inj first
    rw [Nat.zero_add]
  | succ a ih =>
    obtain ⟨u, stepped⟩ := step_completes s
    rw [stepN_succ stepped] at first
    rw [Nat.succ_add, stepN_succ stepped, ih first]

/-- An instruction costs one cycle, so a budget is a number of steps (70_reset_and_hazards.md R344). -/
theorem execute_eq (budget : Int) (s : State) : execute budget s = (stepN budget.toNat s, (budget.toNat : Int)) := by
  simp [execute, stepsOfBudget, Config.cyclesPerInstr]

/-- Settles O58: a run for a budget is that many steps, and steps add up. -/
theorem runsAddUp : Obligations.RunsAddUp := by
  unfold Obligations.RunsAddUp
  simp only [execute_eq]
  refine ⟨fun n s spent => ?noBudget, fun s => Prod.ext (stepN_one s) rfl, fun n s t left stepped => ?oneMore,
    fun n s left => Int.toNat_of_nonneg left, fun a b s leftA leftB => ?sum⟩
  case noBudget =>
    rw [Int.toNat_of_nonpos spent]
    rfl
  case oneMore =>
    rw [Int.toNat_add left (by decide), Int.toNat_one, stepN_succ stepped, Nat.cast_add, Int.toNat_of_nonneg left]
    rfl
  case sum =>
    obtain ⟨t, run⟩ := stepN_completes a.toNat s
    refine ⟨t, run, ?_, by omega⟩
    rw [Int.toNat_add leftA leftB, stepN_add run]

/-! ### Register access (70_reset_and_hazards.md R350) -/

theorem hostSlot_of_slot (slot : Slot) : hostSlot slot.group.toNat slot.index.toNat = some slot := by
  have group : slot.group.toNat < 4 := slot.group.isLt
  have index : slot.index.toNat < 16 := slot.index.isLt
  rw [hostSlot, if_pos ⟨group, index⟩, BitVec.ofNat_toNat, BitVec.ofNat_toNat, BitVec.setWidth_eq, BitVec.setWidth_eq]

theorem hostSlot_of_outside {group index : Nat} (outside : 4 ≤ group ∨ 16 ≤ index) : hostSlot group index = none :=
  if_neg (by omega)

/-- A register write changes the Machine State and may ask for an evaluation, and nothing else. -/
theorem regWrite_eq (slot : Slot) (v : Word) (s : State) : regWrite slot v s =
    { s with cpu := (regWrite slot v s).cpu, evalReq := s.evalReq || controlsInterrupts slot } := by
  rw [← State.regWrite_evalReq slot v s]
  cases valid : regAt slot with
  | some r => rw [regWrite_some valid]
  | none => rw [regWrite_none valid]

/-- Settles O59: the host's write is retired at once, which evaluates interrupts when the slot is that of IMASK or
ICNTL. -/
theorem hostRegisterAccess : Obligations.HostRegisterAccess := by
  unfold Obligations.HostRegisterAccess readRegister writeRegister
  refine ⟨fun slot v s => ?inside, fun g i v s outside => ?outside⟩
  case outside =>
    rw [hostSlot_of_outside outside]
    exact ⟨rfl, rfl⟩
  case inside =>
    rw [hostSlot_of_slot]
    let written := regWrite slot v (beginHostCall s)
    refine ⟨rfl, { beginHostCall s with cpu := written.cpu }, slotWritten_regWrite slot v (beginHostCall s), rfl, ?_⟩
    show retire written = _
    rw [show written = _ from regWrite_eq slot v (beginHostCall s)]
    cases asked : controlsInterrupts slot <;> rfl

/-! ### Reset (70_reset_and_hazards.md R340) -/

/-- BASE after reset is recomputed from the I and L that reset leaves (10_state.md R24, R58). -/
theorem Cpu.baseOf_hostReset (c : Cpu) (k : Fin 8) : BaseOf c.i[k] c.l[k] c.hostReset.base[k] := by
  have base : c.hostReset.base[k] = c.i[k] &&& lmask c.l[k] := by simp [Cpu.hostReset, Cpu.setMstat]
  rw [base]
  exact and_lmask_toNat c.i[k] c.l[k]

/-- Settles O12: reset writes the listed fields and BASE, and names no other. -/
theorem hostResetSetsExactlyTheListedState : Obligations.HostResetSetsExactlyTheListedState := by
  unfold Obligations.HostResetSetsExactlyTheListedState
  exact fun s => ⟨rfl, rfl, rfl, rfl, rfl, rfl, rfl, rfl, rfl, rfl, rfl, s.cpu.baseOf_hostReset, rfl, rfl, rfl, rfl, rfl,
    rfl, rfl, rfl, rfl, rfl, rfl, rfl, rfl, rfl, rfl, rfl, rfl⟩

/-! ### Snapshots (70_reset_and_hazards.md R351) -/

theorem setState_of_agree {c : Cpu} (agree : c.emptyBitsAgree = true) (s : State) :
    setState c s = .next { beginHostCall s with cpu := c } := if_pos agree

/-- The fetch clears the model's own fields, so it makes no difference that a host call cleared them (log 5). -/
theorem step_beginHostCall (s : State) : step (beginHostCall s) = step s := rfl

theorem stepN_beginHostCall (n : Nat) (s : State) : stepN (n + 1) (beginHostCall s) = stepN (n + 1) s := by
  simp only [stepN, step_beginHostCall]

/-- Settles O60: a snapshot that is taken replaces the Machine State, so one just saved changes none of it, and what the
call clears the next step clears as well. -/
theorem snapshotRoundTrip : Obligations.SnapshotRoundTrip := by
  unfold Obligations.SnapshotRoundTrip
  refine ⟨fun c s agree => ?replaced, fun s n agree => ?saved, fun c s broken => ?refused⟩
  case replaced => exact ⟨_, setState_of_agree agree s, rfl, rfl, rfl, rfl, rfl, rfl, rfl, rfl⟩
  case saved => exact ⟨_, setState_of_agree agree s, rfl, rfl, rfl, stepN_beginHostCall n s⟩
  case refused =>
    unfold setState
    rw [broken]
    rfl

end Sys2Proof.Machine
end
